-- ==== Sys2Proof/Word.lean ====
section
/-! DEFINITION. The word types of the core (spec/00_scope.md R10, R12). -/

namespace Sys2Proof

/-- `bits32` of R12: a register, an address, an instruction word. -/
abbrev Word := BitVec 32

/-- One byte of memory. -/
abbrev Byte := BitVec 8

/-- Half of a word. -/
abbrev Half := BitVec 16

/-- A general register's number: "Instructions name a register by a 5-bit field" (R20). -/
abbrev Reg := BitVec 5

/-- `bool32(c)` of R13. -/
def bool32 (c : Bool) : Word := if c then 0x00000001#32 else 0x00000000#32

end Sys2Proof
end

