-- ==== Sys2Proof/Machine/Flags.lean ====
section
/-! DEFINITION. The arithmetic primitives of spec/41_alu.md R200 to R204 and spec/42_muldiv.md R300 to R303. The core
has no flags (spec/10_state.md R29): overflow is a failure of the primitive, a comparison is a value. -/

namespace Sys2Proof.Machine

/-- `add_ovf(a, b)` (R200): `none` is ArithmeticOverflow. -/
def addOvf (a b : Word) : Option Word :=
  let r := a + b
  if a.msb = b.msb ∧ r.msb ≠ a.msb then none else some r

/-- `sub_ovf(a, b)` (R201): `none` is ArithmeticOverflow. -/
def subOvf (a b : Word) : Option Word :=
  let r := a - b
  if a.msb ≠ b.msb ∧ r.msb ≠ a.msb then none else some r

/-- `slt(a, b)` (R203). -/
def sltVal (a b : Word) : Word := bool32 (decide (a.toInt < b.toInt))

/-- `sltu(a, b)` (R203). -/
def sltuVal (a b : Word) : Word := bool32 (decide (a.toNat < b.toNat))

/-- `sll(a, n)` (R204). -/
def sllVal (a : Word) (n : BitVec 5) : Word := a <<< n.toNat

/-- `srl(a, n)` (R204). -/
def srlVal (a : Word) (n : BitVec 5) : Word := a >>> n.toNat

/-- `sra(a, n)` (R204): the vacated bits take the sign. -/
def sraVal (a : Word) (n : BitVec 5) : Word :=
  if a.msb = false then a >>> n.toNat else (a >>> n.toNat) ||| ~~~(0xFFFFFFFF#32 >>> n.toNat)

/-- The pair a multiply or divide leaves in HI and LO. -/
structure HiLo where
  hi : Word
  lo : Word
  deriving DecidableEq, Repr

/-- `mult(a, b)` (R300): the exact signed product modulo 2^64, split. -/
def multVal (a b : Word) : HiLo :=
  let p := BitVec.ofInt 64 (a.toInt * b.toInt)
  ⟨p.extractLsb' 32 32, p.extractLsb' 0 32⟩

/-- `multu(a, b)` (R301). -/
def multuVal (a b : Word) : HiLo :=
  let p := BitVec.ofNat 64 (a.toNat * b.toNat)
  ⟨p.extractLsb' 32 32, p.extractLsb' 0 32⟩

/-- `div(a, b)` (R302): the quotient truncates toward zero. `ovf` is what 0x80000000 / -1 gives. -/
def divVal (ovf : HiLo) (a b : Word) : HiLo :=
  if b = 0x00000000#32 then ⟨0x00000000#32, 0x00000000#32⟩
  else if a = 0x80000000#32 ∧ b = 0xFFFFFFFF#32 then ovf
  else
    let q := a.toInt.tdiv b.toInt
    let r := a.toInt - q * b.toInt
    ⟨BitVec.ofInt 32 r, BitVec.ofInt 32 q⟩

/-- `divu(a, b)` (R303); the error it signals for `b = 0` is raised by DIVU (R313). -/
def divuVal (a b : Word) : HiLo :=
  if b = 0x00000000#32 then ⟨0x00000000#32, 0x00000000#32⟩
  else ⟨BitVec.ofNat 32 (a.toNat % b.toNat), BitVec.ofNat 32 (a.toNat / b.toNat)⟩

end Sys2Proof.Machine
end

