-- ==== Sys2Proof/Machine/Bits.lean ====
section
/-! DEFINITION. Extensions, the word codec and the byte lanes: spec/00_scope.md R13, R15, spec/20_memory.md R67, R69
and spec/44_loadstore.md R500, R501. -/

namespace Sys2Proof.Machine

/-- `sext32(v)` (R13). -/
def sext32 {n : Nat} (v : BitVec n) : Word := v.signExtend 32

/-- `zext32(v)` (R13). -/
def zext32 {n : Nat} (v : BitVec n) : Word := v.setWidth 32

/-- The four bytes of a word as they lie in memory, lowest address first (R67). -/
structure WordBytes where
  b0 : Byte
  b1 : Byte
  b2 : Byte
  b3 : Byte
  deriving DecidableEq, Repr

/-- `decode_word` (R67): big-endian, `b0` the byte at the lowest address. -/
def decodeWord (b : WordBytes) : Word := b.b0 ++ b.b1 ++ b.b2 ++ b.b3

/-- `encode_word` (R67). -/
def encodeWord (v : Word) : WordBytes where
  b0 := v.extractLsb' 24 8
  b1 := v.extractLsb' 16 8
  b2 := v.extractLsb' 8 8
  b3 := v.extractLsb' 0 8

/-- `align4(a)` (R15): the address of the containing aligned word. -/
def align4 (a : Word) : Word := a &&& 0xFFFFFFFC#32

/-- `k = ea[1:0]` (R500): the offset within the containing aligned word. -/
def laneOf (ea : Word) : BitVec 2 := ea.extractLsb' 0 2

/-- The number of bits below the byte lane `k`: `24 - 8k` (R501). -/
def byteShift (k : BitVec 2) : Nat := 24 - 8 * k.toNat

/-- `byte_at(W, k)` (R501, R502): offset 0 is the most significant byte. -/
def byteLane (w : Word) (k : BitVec 2) : Byte := w.extractLsb' (byteShift k) 8

/-- `put_byte(W, k, b)` (R501). -/
def putByte (w : Word) (k : BitVec 2) (b : Byte) : Word :=
  (w &&& ~~~(0x000000FF#32 <<< byteShift k)) ||| (zext32 b <<< byteShift k)

/-- `half_at(W, k)` (R501, R503) for `k` in 0 and 2. -/
def halfLane (w : Word) (k : BitVec 2) : Half := if k = 0 then w.extractLsb' 16 16 else w.extractLsb' 0 16

/-- `put_half(W, k, h)` (R501) for `k` in 0 and 2. -/
def putHalf (w : Word) (k : BitVec 2) (h : Half) : Word :=
  if k = 0 then (w &&& 0x0000FFFF#32) ||| (zext32 h <<< 16) else (w &&& 0xFFFF0000#32) ||| zext32 h

end Sys2Proof.Machine
end

