-- ==== Sys2Proof/Config.lean ====
section
/-! DEFINITION. The parameters of spec/00_scope.md R11 that a model takes as arguments, and the one free value:
`MEM_INIT`, which R11 and R65 leave OPEN. `MEM_SIZE` belongs to the memory (`Machine.Memory`). The spec leaves no result
of an instruction undefined. -/

namespace Sys2Proof

/-- What `set_pc` does to `nextPc` (R35, `SET_PC_NEXT`). -/
inductive SetPcNext where
  /-- `nextPc <- v + 4`. -/
  | plus4
  /-- `nextPc` is unchanged. -/
  | keep
  deriving DecidableEq, Repr

/-- The parameters of R11 with a decided default. They are fixed for a machine: no step changes them. -/
structure Params where
  /-- `EXT_HILO_MOVES`: MFHI, MFLO, MTHI, MTLO are executed (R114). -/
  extHiloMoves : Bool
  /-- `EXT_VAR_SHIFTS`: SLLV, SRLV, SRAV are executed (R114). -/
  extVarShifts : Bool
  /-- `STRICT_RESERVED_FIELDS`: a nonzero reserved field is a decode failure (R113). -/
  strictReservedFields : Bool
  /-- `LB_SIGN_EXTEND`: LB sign-extends (R506). -/
  lbSignExtend : Bool
  /-- `DIVU_ZERO_COMMITS_HILO`: DIVU by zero writes HI and LO before it raises (R313). -/
  divuZeroCommitsHilo : Bool
  /-- `DIV_OVF_HI`: HI after DIV of 0x80000000 by -1 (R302). -/
  divOvfHi : Word
  /-- `DIV_OVF_LO`: LO after DIV of 0x80000000 by -1 (R302). -/
  divOvfLo : Word
  /-- `SET_PC_NEXT` (R35). -/
  setPcNext : SetPcNext
  deriving DecidableEq, Repr

/-- `MEM_INIT`: the byte at each address that neither the host's image nor a store has set. A free value: "A model must
not assume that bytes the host did not load are zero" (R65; log 5). -/
opaque Config.memInit : Nat → Byte

end Sys2Proof
end

