-- ==== Sys2Proof/Machine/Defaults.lean ====
section
/-! DEFINITION. The parameter values of spec/00_scope.md R11 that the reset state and `decodeTableWord` use. The
machine reads its parameters from its state; the statements hold at every value. -/

namespace Sys2Proof.Machine

/-- The value R11 decides for each parameter. -/
def defaultParams : Params where
  extHiloMoves := true
  extVarShifts := true
  strictReservedFields := false
  lbSignExtend := false
  divuZeroCommitsHilo := true
  divOvfHi := 0x00000000#32
  divOvfLo := 0x80000000#32
  setPcNext := .plus4

/-- `MEM_SIZE` of the reset state's memory: the whole address space of R70. DESIGN CHOICE, log 4 (R11 leaves it OPEN). -/
def defaultMemSize : Nat := 4294967296

/-- The reset state's memory is known at no address: each byte is the free value `Config.memInit` (R65; log 5). -/
def defaultFill : Option Byte := none

end Sys2Proof.Machine
end

