-- ==== Sys2Proof/Machine/State.lean ====
section
/-! DEFINITION. The machine's state as plain data (spec/10_state.md, spec/20_memory.md R64), the step status
(spec/60_exceptions.md R600) and the state after reset (R33). -/

namespace Sys2Proof.Machine

/-- The error codes of the reference memory: it "answers the single error code `MEM_ERR`" (R64). The spec gives it no
number. -/
inductive MemCode where
  | memErr
  deriving DecidableEq, Repr

/-- The status of a step (R600). -/
inductive Status where
  | success
  /-- R601. -/
  | invalidInstruction
  /-- R602. -/
  | invalidAlignment
  /-- R603. -/
  | arithmeticOverflow
  /-- R604: the memory's code, verbatim. -/
  | memoryError (code : MemCode)
  deriving DecidableEq, Repr

/-- A request on the memory port (R60): `len` is the length the core passes (R61). -/
inductive Request where
  | read (addr : Word) (len : Nat)
  | write (addr : Word) (len : Nat) (value : Word)
  deriving DecidableEq, Repr

/-- The reference memory of R64. `cells` lists bytes at strictly rising addresses below `size` (`Memory.wf`). An address it
does not list holds `fill`, and then `cells` lists only what differs; or, with no `fill`, the free value of `MEM_INIT`
(R65), and then `cells` lists what the host loaded and the program stored. Every content of `size` bytes is such a
memory. -/
structure Memory where
  /-- `MEM_SIZE`, in bytes. -/
  size : Nat
  /-- What an address that `cells` does not list holds, where it is known (log 5). -/
  fill : Option Byte
  cells : List Host.Cell
  deriving DecidableEq, Repr

/-- The whole state. `pc` to `lo` are the core's (R33); `mem` is the memory behind the port (R65); `params` are the
parameters of R11; `status` and `requests` are the model's own record of what the last step sent out through the host
port and the memory port (logs 1 and 2). -/
structure State where
  /-- R24. -/
  pc : Word
  /-- R25: the address of the instruction that becomes current next. -/
  nextPc : Word
  /-- R20. `x[0]` is hardwired: read and write through `getReg` and `setReg` only (R21). -/
  regs : Vector Word 32
  /-- R28. -/
  hi : Word
  /-- R28. -/
  lo : Word
  mem : Memory
  params : Params
  /-- The response of the last step; `none` before the first. -/
  status : Option Status
  /-- The requests of the last step, oldest first. -/
  requests : List Request
  deriving DecidableEq, Repr

/-- Reasons a step could stop without a next state. There is none: the spec gives every error its whole effect, a
status and the state after it (R150, R152, R600), and "The core has no behaviour that is `stuck`" (spec/93). No meaning
raises one; safe (log 1). -/
inductive Fault
  deriving DecidableEq, Repr

/-- Reasons a step could have no meaning. -/
inductive Refusal where
  /-- Raised by an arm of `exec` for an instruction that has no meaning yet; no arm does. Safe. -/
  | notModelled (mnemonic : String)
  deriving DecidableEq, Repr

/-- What a meaning answers. -/
abbrev Outcome := Host.Outcome State Fault Refusal

/-- The core right after `create` or `reset` (R33, R701), bound to the memory `m`: every piece of its state is 0,
`nextPc` too. The memory and the parameters are not touched (R65). -/
def zeroState (p : Params) (m : Memory) : State where
  pc := 0x00000000#32
  nextPc := 0x00000000#32
  regs := Vector.replicate 32 0x00000000#32
  hi := 0x00000000#32
  lo := 0x00000000#32
  mem := m
  params := p
  status := none
  requests := []

/-- A memory with nothing listed (logs 4 and 5). -/
def emptyMemory : Memory where
  size := defaultMemSize
  fill := defaultFill
  cells := []

/-- The machine right after reset (R33), with the parameter values of R11 and a memory with nothing listed. -/
def State.reset : State := zeroState defaultParams emptyMemory

end Sys2Proof.Machine
end

