-- ==== Sys2Proof/Machine/Ops.lean ====
section
/-! DEFINITION. The named operations over memory, registers and the pc pair: the reference memory (spec/20_memory.md
R64), the memory port (R15, R60), register access (spec/10_state.md R21), the sequencer and the common tail
(spec/40_step.md R147, R148) and raising an error (R16, R150). -/

namespace Sys2Proof.Machine

/-! ## Cells in canonical form -/

/-- What `cells` gives for address `a`; `unlisted a` where it lists nothing. -/
def findCell (unlisted : Nat → Byte) (a : Nat) : List Host.Cell → Byte
  | [] => unlisted a
  | c :: cs => if c.1 = a then c.2 else findCell unlisted a cs

/-- `cells` without address `a`. -/
def dropCell (a : Nat) : List Host.Cell → List Host.Cell
  | [] => []
  | c :: cs => if c.1 = a then dropCell a cs else c :: dropCell a cs

/-- `cells` with `(a, b)` put before the first higher address. -/
def putCell (a : Nat) (b : Byte) : List Host.Cell → List Host.Cell
  | [] => [(a, b)]
  | c :: cs => if a < c.1 then (a, b) :: c :: cs else c :: putCell a b cs

/-- `cells` with address `a` holding `b`: the entry goes when `b` is known to be what an unlisted address holds. -/
def storeCell (fill : Option Byte) (a : Nat) (b : Byte) (cs : List Host.Cell) : List Host.Cell :=
  if fill = some b then dropCell a cs else putCell a b (dropCell a cs)

/-! ## The reference memory (R64) -/

/-- What an unlisted address holds: this memory's `fill`, or the free value of `MEM_INIT` (R65; log 5). -/
def Memory.unlisted (m : Memory) (a : Nat) : Byte :=
  match m.fill with
  | some b => b
  | none => Config.memInit a

/-- The byte at address `a`: the one way to read a byte. -/
def Memory.byteAt (m : Memory) (a : Nat) : Byte := findCell m.unlisted a m.cells

/-- The memory with the byte at `a` replaced. -/
def Memory.setByte (m : Memory) (a : Nat) (b : Byte) : Memory :=
  { m with cells := storeCell m.fill a b m.cells }

/-- The canonical form: addresses strictly rise, lie below `size`, and no entry holds what an unlisted address is known to
hold. -/
def Memory.wf (m : Memory) : Bool :=
  decide (m.cells.Pairwise (fun c d => c.1 < d.1)) && m.cells.all (fun c => decide (c.1 < m.size) && some c.2 != m.fill)

/-- "A request `(a, 4)` succeeds if and only if `a mod 4 = 0` and `toNat(a) + 4 <= MEM_SIZE`." (R64) -/
def Memory.accepts (m : Memory) (a : Word) : Bool := decide (a.toNat % 4 = 0) && decide (a.toNat + 4 ≤ m.size)

/-- The four bytes from address `a` on. -/
def Memory.bytesAt (m : Memory) (a : Nat) : WordBytes where
  b0 := m.byteAt a
  b1 := m.byteAt (a + 1)
  b2 := m.byteAt (a + 2)
  b3 := m.byteAt (a + 3)

/-- The memory with the four bytes from address `a` on replaced. -/
def Memory.setBytes (m : Memory) (a : Nat) (b : WordBytes) : Memory :=
  (((m.setByte a b.b0).setByte (a + 1) b.b1).setByte (a + 2) b.b2).setByte (a + 3) b.b3

/-- A read request of 4 bytes (R64): the four bytes in order, or the memory's code. -/
def Memory.read (m : Memory) (a : Word) : Except MemCode WordBytes :=
  if m.accepts a then .ok (m.bytesAt a.toNat) else .error .memErr

/-- A write request of 4 bytes (R64): "A request that fails changes no byte". -/
def Memory.write (m : Memory) (a : Word) (b : WordBytes) : Except MemCode Memory :=
  if m.accepts a then .ok (m.setBytes a.toNat b) else .error .memErr

/-! ## Registers (R14, R21) -/

/-- `x[r]`: register 0 reads 0 always. -/
def State.getReg (s : State) (r : Reg) : Word := if r = 0 then 0x00000000#32 else s.regs[r.toNat]'r.isLt

/-- `x[r] <- v`: a write to register 0 has no effect. -/
def State.setReg (s : State) (r : Reg) (v : Word) : State :=
  if r = 0 then s else { s with regs := s.regs.set r.toNat v r.isLt }

/-- `HI <- h ; LO <- l`. -/
def State.setHiLo (s : State) (h l : Word) : State := { s with hi := h, lo := l }

/-- `HI <- h`. -/
def State.setHi (s : State) (h : Word) : State := { s with hi := h }

/-- `LO <- l`. -/
def State.setLo (s : State) (l : Word) : State := { s with lo := l }

/-- The link register of JAL, BLTZAL and BGEZAL (R410, R411, R414). -/
def linkReg : Reg := 31#5

/-! ## The pc pair (R148, R149) -/

/-- `advance(d)`: `pc <- nextPc ; nextPc <- nextPc + d` (R148). -/
def State.advance (s : State) (d : Word) : State := { s with pc := s.nextPc, nextPc := s.nextPc + d }

/-- `pc <- nextPc ; nextPc <- t`: control goes to the delay slot and then to `t` (R413). -/
def State.jumpTo (s : State) (t : Word) : State := { s with pc := s.nextPc, nextPc := t }

/-! ## How a step ends (R16, R144, R147, R150) -/

/-- The step returns Success with this state. -/
def State.succeed (s : State) : Outcome := .next { s with status := some .success }

/-- The common tail (R147): `x[0] <- 0`, then `advance(4)`; the step succeeds. -/
def State.tail (s : State) : Outcome := ((s.setReg 0#5 0x00000000#32).advance 4#32).succeed

/-- `raise E` (R16): the step ends at once and answers the error; the state is the one it is raised in (R150). This is
how every exception of this core is taken: no vector, no saved state, no mode (R607, R609). There is no return from one
(R610): the host may step again, change the state through its port, or reset. -/
def State.raise (s : State) (e : Status) : Outcome := .next { s with status := some e }

/-! ## The memory port (R15, R60, R61) -/

/-- The address a request goes to. -/
def Request.addr : Request → Word
  | .read a _ => a
  | .write a _ _ => a

/-- The length a request asks for. -/
def Request.len : Request → Nat
  | .read _ n => n
  | .write _ n _ => n

/-- A request goes out on the port. -/
def State.issue (s : State) (q : Request) : State := { s with requests := s.requests ++ [q] }

/-- `w <- MemRead(a, 4)`, then `k` with the word and the state after the request. On an error the step ends with the
memory's code (R62). -/
def State.readWord (s : State) (a : Word) (k : Word → State → Outcome) : Outcome :=
  match s.mem.read a with
  | .ok b => k (decodeWord b) (s.issue (.read a 4))
  | .error c => (s.issue (.read a 4)).raise (.memoryError c)

/-- `MemWrite(a, 4, v)`, then `k` with the state after the request. On an error the step ends with the memory's code. -/
def State.writeWord (s : State) (a v : Word) (k : State → Outcome) : Outcome :=
  match s.mem.write a (encodeWord v) with
  | .ok m => k { s.issue (.write a 4 v) with mem := m }
  | .error c => (s.issue (.write a 4 v)).raise (.memoryError c)

end Sys2Proof.Machine
end

