-- ==== Sys2Proof/Machine/Operands.lean ====
section
/-! DEFINITION. The operand forms of spec/30_encoding.md R106 and spec/44_loadstore.md R500. -/

namespace Sys2Proof.Machine

/-- `simm`: the sign-extended immediate. -/
def simm (imm : Half) : Word := sext32 imm

/-- `zimm`: the zero-extended immediate. -/
def zimm (imm : Half) : Word := zext32 imm

/-- `luimm = imm16 ++ 0x0000`. -/
def luimm (imm : Half) : Word := imm ++ 0x0000#16

/-- `boff = sext32(imm16) << 2`. -/
def boff (imm : Half) : Word := sext32 imm <<< 2

/-- `jtarget = (nextPc & 0xF0000000) | (zext32(target26) << 2)`, with `nextPc` as the step finds it (R412). -/
def jtarget (nextPc : Word) (target : BitVec 26) : Word := (nextPc &&& 0xF0000000#32) ||| (zext32 target <<< 2)

/-- `vsa = x[rs][4:0]` (R222 to R224). -/
def vsa (v : Word) : BitVec 5 := v.extractLsb' 0 5

/-- The effective address `x[rs] + sext32(imm16)`, modulo 2^32 (R78, R500). -/
def State.ea (s : State) (base : Reg) (offset : Half) : Word := s.getReg base + sext32 offset

/-- The link value, `pc + 8` of the linking instruction itself (R401, R414, R416). -/
def State.link (s : State) : Word := s.pc + 8#32

end Sys2Proof.Machine
end

