-- ==== Sys2Proof/Machine/Alu.lean ====
section
/-! DEFINITION. ADD to SLTU: register-register arithmetic and logic (spec/41_alu.md R210 to R218). -/

namespace Sys2Proof.Machine

/-- ADD (R210): on overflow the destination and the rest of the state are untouched. -/
def execAdd (rd rs rt : Reg) (s : State) : Outcome :=
  match addOvf (s.getReg rs) (s.getReg rt) with
  | some r => (s.setReg rd r).tail
  | none => s.raise .arithmeticOverflow

/-- ADDU (R211). -/
def execAddu (rd rs rt : Reg) (s : State) : Outcome := (s.setReg rd (s.getReg rs + s.getReg rt)).tail

/-- SUB (R212). -/
def execSub (rd rs rt : Reg) (s : State) : Outcome :=
  match subOvf (s.getReg rs) (s.getReg rt) with
  | some r => (s.setReg rd r).tail
  | none => s.raise .arithmeticOverflow

/-- SUBU (R213). -/
def execSubu (rd rs rt : Reg) (s : State) : Outcome := (s.setReg rd (s.getReg rs - s.getReg rt)).tail

/-- AND (R214). -/
def execAnd (rd rs rt : Reg) (s : State) : Outcome := (s.setReg rd (s.getReg rs &&& s.getReg rt)).tail

/-- OR (R215). -/
def execOr (rd rs rt : Reg) (s : State) : Outcome := (s.setReg rd (s.getReg rs ||| s.getReg rt)).tail

/-- XOR (R216). -/
def execXor (rd rs rt : Reg) (s : State) : Outcome := (s.setReg rd (s.getReg rs ^^^ s.getReg rt)).tail

/-- SLT (R217). -/
def execSlt (rd rs rt : Reg) (s : State) : Outcome := (s.setReg rd (sltVal (s.getReg rs) (s.getReg rt))).tail

/-- SLTU (R218). -/
def execSltu (rd rs rt : Reg) (s : State) : Outcome := (s.setReg rd (sltuVal (s.getReg rs) (s.getReg rt))).tail

end Sys2Proof.Machine
end

