-- ==== Sys2Proof/Machine/Control.lean ====
section
/-! DEFINITION. The branches and jumps: the own-control-transfer class (spec/43_control.md R400 to R416). -/

namespace Sys2Proof.Machine

/-- `branch(taken, imm16)` (R400). It always succeeds. -/
def State.branch (s : State) (taken : Bool) (offset : Half) : Outcome :=
  if taken then (s.advance (boff offset)).succeed else (s.advance 4#32).succeed

/-- `branch_and_link(taken, imm16, link)` (R401): the link is written whether or not the branch is taken; `taken` was
computed before it. -/
def State.branchAndLink (s : State) (taken : Bool) (offset : Half) (link : Reg) : Outcome :=
  (s.setReg link s.link).branch taken offset

/-- BEQ (R404). -/
def execBeq (rs rt : Reg) (offset : Half) (s : State) : Outcome :=
  s.branch (decide (s.getReg rs = s.getReg rt)) offset

/-- BNE (R405). -/
def execBne (rs rt : Reg) (offset : Half) (s : State) : Outcome :=
  s.branch (decide (s.getReg rs ≠ s.getReg rt)) offset

/-- BLEZ (R406). -/
def execBlez (rs : Reg) (offset : Half) (s : State) : Outcome :=
  s.branch (decide ((s.getReg rs).toInt ≤ 0)) offset

/-- BGTZ (R407). -/
def execBgtz (rs : Reg) (offset : Half) (s : State) : Outcome :=
  s.branch (decide (0 < (s.getReg rs).toInt)) offset

/-- BLTZ (R408). -/
def execBltz (rs : Reg) (offset : Half) (s : State) : Outcome :=
  s.branch (decide ((s.getReg rs).toInt < 0)) offset

/-- BGEZ (R409). -/
def execBgez (rs : Reg) (offset : Half) (s : State) : Outcome :=
  s.branch (decide (0 ≤ (s.getReg rs).toInt)) offset

/-- BLTZAL (R410): the condition reads `x[rs]` before the link is written. -/
def execBltzal (rs : Reg) (offset : Half) (s : State) : Outcome :=
  s.branchAndLink (decide ((s.getReg rs).toInt < 0)) offset linkReg

/-- BGEZAL (R411). -/
def execBgezal (rs : Reg) (offset : Half) (s : State) : Outcome :=
  s.branchAndLink (decide (0 ≤ (s.getReg rs).toInt)) offset linkReg

/-- J (R413). -/
def execJ (target : BitVec 26) (s : State) : Outcome := (s.jumpTo (jtarget s.nextPc target)).succeed

/-- JAL (R414). -/
def execJal (target : BitVec 26) (s : State) : Outcome :=
  ((s.setReg linkReg s.link).jumpTo (jtarget s.nextPc target)).succeed

/-- JR (R415): no alignment check on the target (R419). -/
def execJr (rs : Reg) (s : State) : Outcome := (s.jumpTo (s.getReg rs)).succeed

/-- JALR (R416): the target is read before the link is written; a link to register 0 is discarded (spec/90 C4). -/
def execJalr (rd rs : Reg) (s : State) : Outcome := ((s.setReg rd s.link).jumpTo (s.getReg rs)).succeed

end Sys2Proof.Machine
end

