-- ==== Sys2Proof/Machine/Immediate.lean ====
section
/-! DEFINITION. ADDI to LUI: immediate arithmetic and logic (spec/41_alu.md R230 to R237). -/

namespace Sys2Proof.Machine

/-- ADDI (R230): traps on overflow even when `rt` is register 0. -/
def execAddi (rt rs : Reg) (imm : Half) (s : State) : Outcome :=
  match addOvf (s.getReg rs) (simm imm) with
  | some r => (s.setReg rt r).tail
  | none => s.raise .arithmeticOverflow

/-- ADDIU (R231): the immediate is sign-extended (spec/90 C10). -/
def execAddiu (rt rs : Reg) (imm : Half) (s : State) : Outcome := (s.setReg rt (s.getReg rs + simm imm)).tail

/-- SLTI (R232). -/
def execSlti (rt rs : Reg) (imm : Half) (s : State) : Outcome := (s.setReg rt (sltVal (s.getReg rs) (simm imm))).tail

/-- SLTIU (R233): the immediate is sign-extended, then compared unsigned (spec/90 C10). -/
def execSltiu (rt rs : Reg) (imm : Half) (s : State) : Outcome :=
  (s.setReg rt (sltuVal (s.getReg rs) (simm imm))).tail

/-- ANDI (R234). -/
def execAndi (rt rs : Reg) (imm : Half) (s : State) : Outcome := (s.setReg rt (s.getReg rs &&& zimm imm)).tail

/-- ORI (R235). -/
def execOri (rt rs : Reg) (imm : Half) (s : State) : Outcome := (s.setReg rt (s.getReg rs ||| zimm imm)).tail

/-- XORI (R236). -/
def execXori (rt rs : Reg) (imm : Half) (s : State) : Outcome := (s.setReg rt (s.getReg rs ^^^ zimm imm)).tail

/-- LUI (R237). -/
def execLui (rt : Reg) (imm : Half) (s : State) : Outcome := (s.setReg rt (luimm imm)).tail

end Sys2Proof.Machine
end

