-- ==== Sys2Proof/Machine/LoadStore.lean ====
section
/-! DEFINITION. The loads and stores (spec/44_loadstore.md R500 to R515). -/

namespace Sys2Proof.Machine

/-- The alignment LH, LHU and SH require: `k` in 0 and 2 (R75, R602). -/
def halfAligned (k : BitVec 2) : Bool := k == 0#2 || k == 2#2

/-- The shared shape of R506 to R512: one read of the containing aligned word, then `x[rt] <- value W k`. -/
def State.load (s : State) (rt : Reg) (offset : Half) (base : Reg) (value : Word → BitVec 2 → Word) : Outcome :=
  let ea := s.ea base offset
  s.readWord (align4 ea) fun w s' => (s'.setReg rt (value w (laneOf ea))).tail

/-- The shared shape of R513 and R514: one read and one write of the containing aligned word (R504). -/
def State.storeLane (s : State) (offset : Half) (base : Reg) (put : Word → BitVec 2 → Word) : Outcome :=
  let ea := s.ea base offset
  s.readWord (align4 ea) fun w s' => s'.writeWord (align4 ea) (put w (laneOf ea)) State.tail

/-- LB (R506): zero-extends unless LB_SIGN_EXTEND (spec/90 C3). -/
def execLb (rt : Reg) (offset : Half) (base : Reg) (s : State) : Outcome :=
  s.load rt offset base fun w k =>
    if s.params.lbSignExtend then sext32 (byteLane w k) else zext32 (byteLane w k)

/-- LBU (R507). -/
def execLbu (rt : Reg) (offset : Half) (base : Reg) (s : State) : Outcome :=
  s.load rt offset base fun w k => zext32 (byteLane w k)

/-- LH (R508): the alignment check comes before any request (R505). -/
def execLh (rt : Reg) (offset : Half) (base : Reg) (s : State) : Outcome :=
  if halfAligned (laneOf (s.ea base offset)) then s.load rt offset base fun w k => sext32 (halfLane w k)
  else s.raise .invalidAlignment

/-- LHU (R509). -/
def execLhu (rt : Reg) (offset : Half) (base : Reg) (s : State) : Outcome :=
  if halfAligned (laneOf (s.ea base offset)) then s.load rt offset base fun w k => zext32 (halfLane w k)
  else s.raise .invalidAlignment

/-- LW (R510): `k` is ignored, and there is no store (spec/90 C5). -/
def execLw (rt : Reg) (offset : Half) (base : Reg) (s : State) : Outcome := s.load rt offset base fun w _ => w

/-- The table of R511: the bytes from `ea` to the end of its word go to the most significant end of `old`. -/
def lwlMerge (old w : Word) (k : BitVec 2) : Word :=
  match k with
  | 0#2 => w
  | 1#2 => (w <<< 8) ||| (old &&& 0x000000FF#32)
  | 2#2 => (w <<< 16) ||| (old &&& 0x0000FFFF#32)
  | 3#2 => (w <<< 24) ||| (old &&& 0x00FFFFFF#32)

/-- LWL (R511). -/
def execLwl (rt : Reg) (offset : Half) (base : Reg) (s : State) : Outcome :=
  s.load rt offset base fun w k => lwlMerge (s.getReg rt) w k

/-- The table of R512: the bytes from the start of the word up to `ea` go to the least significant end of `old`. -/
def lwrMerge (old w : Word) (k : BitVec 2) : Word :=
  match k with
  | 0#2 => (old &&& 0xFFFFFF00#32) ||| (w >>> 24)
  | 1#2 => (old &&& 0xFFFF0000#32) ||| (w >>> 16)
  | 2#2 => (old &&& 0xFF000000#32) ||| (w >>> 8)
  | 3#2 => w

/-- LWR (R512). -/
def execLwr (rt : Reg) (offset : Half) (base : Reg) (s : State) : Outcome :=
  s.load rt offset base fun w k => lwrMerge (s.getReg rt) w k

/-- SB (R513). -/
def execSb (rt : Reg) (offset : Half) (base : Reg) (s : State) : Outcome :=
  s.storeLane offset base fun w k => putByte w k ((s.getReg rt).extractLsb' 0 8)

/-- SH (R514). -/
def execSh (rt : Reg) (offset : Half) (base : Reg) (s : State) : Outcome :=
  if halfAligned (laneOf (s.ea base offset)) then
    s.storeLane offset base fun w k => putHalf w k ((s.getReg rt).extractLsb' 0 16)
  else s.raise .invalidAlignment

/-- SW (R515): one write, no read; `k` is ignored. -/
def execSw (rt : Reg) (offset : Half) (base : Reg) (s : State) : Outcome :=
  s.writeWord (align4 (s.ea base offset)) (s.getReg rt) State.tail

end Sys2Proof.Machine
end

