-- ==== Sys2Proof/Machine/MulDiv.lean ====
section
/-! DEFINITION. MULT to DIVU and the HI/LO moves (spec/42_muldiv.md R310 to R317). -/

namespace Sys2Proof.Machine

/-- `(h, l) <- v ; HI <- h ; LO <- l ; tail`. -/
def State.retireHiLo (s : State) (v : HiLo) : Outcome := (s.setHiLo v.hi v.lo).tail

/-- MULT (R310). -/
def execMult (rs rt : Reg) (s : State) : Outcome := s.retireHiLo (multVal (s.getReg rs) (s.getReg rt))

/-- MULTU (R311). -/
def execMultu (rs rt : Reg) (s : State) : Outcome := s.retireHiLo (multuVal (s.getReg rs) (s.getReg rt))

/-- DIV (R312): no error on a zero divisor. -/
def execDiv (rs rt : Reg) (s : State) : Outcome :=
  s.retireHiLo (divVal ⟨s.params.divOvfHi, s.params.divOvfLo⟩ (s.getReg rs) (s.getReg rt))

/-- DIVU (R313): a zero divisor raises InvalidInstruction, after HI and LO are written 0 when DIVU_ZERO_COMMITS_HILO
says so. It is the one error after which the state is not the state before (R150). -/
def execDivu (rs rt : Reg) (s : State) : Outcome :=
  if s.getReg rt = 0x00000000#32 then
    State.raise (if s.params.divuZeroCommitsHilo then s.setHiLo 0x00000000#32 0x00000000#32 else s) .invalidInstruction
  else s.retireHiLo (divuVal (s.getReg rs) (s.getReg rt))

/-- MFHI (R314). The gate on EXT_HILO_MOVES is the decoder's, here and below (R114, log 23). -/
def execMfhi (rd : Reg) (s : State) : Outcome := (s.setReg rd s.hi).tail

/-- MFLO (R315). -/
def execMflo (rd : Reg) (s : State) : Outcome := (s.setReg rd s.lo).tail

/-- MTHI (R316). -/
def execMthi (rs : Reg) (s : State) : Outcome := (s.setHi (s.getReg rs)).tail

/-- MTLO (R317). -/
def execMtlo (rs : Reg) (s : State) : Outcome := (s.setLo (s.getReg rs)).tail

end Sys2Proof.Machine
end

