-- ==== Sys2Proof/Machine/Shift.lean ====
section
/-! DEFINITION. SLL to SRAV: the shifts (spec/41_alu.md R219 to R224). -/

namespace Sys2Proof.Machine

/-- SLL (R219): by the constant `sa`. -/
def execSll (rd rt : Reg) (sa : BitVec 5) (s : State) : Outcome := (s.setReg rd (sllVal (s.getReg rt) sa)).tail

/-- SRL (R220): by the constant `sa`. -/
def execSrl (rd rt : Reg) (sa : BitVec 5) (s : State) : Outcome := (s.setReg rd (srlVal (s.getReg rt) sa)).tail

/-- SRA (R221): by the constant `sa`. -/
def execSra (rd rt : Reg) (sa : BitVec 5) (s : State) : Outcome := (s.setReg rd (sraVal (s.getReg rt) sa)).tail

/-- SLLV (R222): by the low 5 bits of `x[rs]`. The gate on EXT_VAR_SHIFTS is the decoder's (R114, log 23). -/
def execSllv (rd rt rs : Reg) (s : State) : Outcome :=
  (s.setReg rd (sllVal (s.getReg rt) (vsa (s.getReg rs)))).tail

/-- SRLV (R223): by the low 5 bits of `x[rs]`. The gate on EXT_VAR_SHIFTS is the decoder's (R114, log 23). -/
def execSrlv (rd rt rs : Reg) (s : State) : Outcome :=
  (s.setReg rd (srlVal (s.getReg rt) (vsa (s.getReg rs)))).tail

/-- SRAV (R224): by the low 5 bits of `x[rs]`. The gate on EXT_VAR_SHIFTS is the decoder's (R114, log 23). -/
def execSrav (rd rt rs : Reg) (s : State) : Outcome :=
  (s.setReg rd (sraVal (s.getReg rt) (vsa (s.getReg rs)))).tail

end Sys2Proof.Machine
end

