-- ==== Sys2Proof/Syntax.lean ====
section
/-! DEFINITION. The instructions: one constructor per row of spec/opcode_table.json (R3), with the operands in the
assembler's order (R130). Fields the row ignores (R113) are not part of the instruction. -/

namespace Sys2Proof

/-- A decoded instruction (R142). -/
inductive Instr where
  -- register-register arithmetic and logic (R210 to R218)
  | add (rd rs rt : Reg)
  | addu (rd rs rt : Reg)
  | sub (rd rs rt : Reg)
  | subu (rd rs rt : Reg)
  | and (rd rs rt : Reg)
  | or (rd rs rt : Reg)
  | xor (rd rs rt : Reg)
  | slt (rd rs rt : Reg)
  | sltu (rd rs rt : Reg)
  -- shifts (R219 to R224)
  | sll (rd rt : Reg) (sa : BitVec 5)
  | srl (rd rt : Reg) (sa : BitVec 5)
  | sra (rd rt : Reg) (sa : BitVec 5)
  | sllv (rd rt rs : Reg)
  | srlv (rd rt rs : Reg)
  | srav (rd rt rs : Reg)
  -- immediate arithmetic and logic (R230 to R237)
  | addi (rt rs : Reg) (imm : Half)
  | addiu (rt rs : Reg) (imm : Half)
  | slti (rt rs : Reg) (imm : Half)
  | sltiu (rt rs : Reg) (imm : Half)
  | andi (rt rs : Reg) (imm : Half)
  | ori (rt rs : Reg) (imm : Half)
  | xori (rt rs : Reg) (imm : Half)
  | lui (rt : Reg) (imm : Half)
  -- multiply and divide (R310 to R313)
  | mult (rs rt : Reg)
  | multu (rs rt : Reg)
  | div (rs rt : Reg)
  | divu (rs rt : Reg)
  -- HI/LO moves (R314 to R317)
  | mfhi (rd : Reg)
  | mflo (rd : Reg)
  | mthi (rs : Reg)
  | mtlo (rs : Reg)
  -- conditional branches (R404 to R411)
  | beq (rs rt : Reg) (offset : Half)
  | bne (rs rt : Reg) (offset : Half)
  | blez (rs : Reg) (offset : Half)
  | bgtz (rs : Reg) (offset : Half)
  | bltz (rs : Reg) (offset : Half)
  | bgez (rs : Reg) (offset : Half)
  | bltzal (rs : Reg) (offset : Half)
  | bgezal (rs : Reg) (offset : Half)
  -- jumps (R413 to R416)
  | j (target : BitVec 26)
  | jal (target : BitVec 26)
  | jr (rs : Reg)
  | jalr (rd rs : Reg)
  -- loads (R506 to R512)
  | lb (rt : Reg) (offset : Half) (base : Reg)
  | lbu (rt : Reg) (offset : Half) (base : Reg)
  | lh (rt : Reg) (offset : Half) (base : Reg)
  | lhu (rt : Reg) (offset : Half) (base : Reg)
  | lw (rt : Reg) (offset : Half) (base : Reg)
  | lwl (rt : Reg) (offset : Half) (base : Reg)
  | lwr (rt : Reg) (offset : Half) (base : Reg)
  -- stores (R513 to R515)
  | sb (rt : Reg) (offset : Half) (base : Reg)
  | sh (rt : Reg) (offset : Half) (base : Reg)
  | sw (rt : Reg) (offset : Half) (base : Reg)
  deriving DecidableEq, Repr

end Sys2Proof
end

