-- ==== Sys2Proof/Decode.lean ====
section
/-! DEFINITION. The decoder, the encoder and the opcode table (spec/30_encoding.md). The opcode, funct and selector
numbers and the places of rs, rt, rd and shamt are the spec's own (R102, R103, R107, R108, R111); the spec marks them
as general knowledge that its source does not give (log 9, UNVERIFIED against the source). -/

namespace Sys2Proof

open Machine (WordBytes decodeWord encodeWord defaultParams)

/-! ## Fields (R105) -/

/-- `opcode = w[31:26]`. -/
def opcodeOf (w : Word) : BitVec 6 := w.extractLsb' 26 6

/-- `rs = w[25:21]`. -/
def rsOf (w : Word) : Reg := w.extractLsb' 21 5

/-- `rt = w[20:16]`, which is the branch selector in the REGIMM group (R103). -/
def rtOf (w : Word) : Reg := w.extractLsb' 16 5

/-- `rd = w[15:11]`. -/
def rdOf (w : Word) : Reg := w.extractLsb' 11 5

/-- `shamt = w[10:6]`. -/
def shamtOf (w : Word) : BitVec 5 := w.extractLsb' 6 5

/-- `funct = w[5:0]`. -/
def functOf (w : Word) : BitVec 6 := w.extractLsb' 0 6

/-- `imm16 = w[15:0]`. -/
def immOf (w : Word) : Half := w.extractLsb' 0 16

/-- `target26 = w[25:0]`. -/
def targetOf (w : Word) : BitVec 26 := w.extractLsb' 0 26

/-! ## The decoder -/

/-- Why a word is no instruction. Each is the one status InvalidInstruction, so the choice among them is not observable
(R127; log 21). -/
inductive DecodeError where
  /-- R120, R123: the primary opcode is not executed. -/
  | unrecognizedOpcode
  /-- R121, R124: the SPECIAL funct is not executed. -/
  | unrecognizedFunct
  /-- R122: the REGIMM selector is not 0, 1, 16 or 17. -/
  | malformedSelector
  /-- R114: a Tier D row whose parameter is false. -/
  | absentExtension
  /-- R112: `shamt` is nonzero on a non-shift funct. -/
  | nonzeroShamt
  /-- R113: strict mode, and a reserved field is nonzero. -/
  | reservedField
  deriving DecidableEq, Repr

/-- The strict-mode check of R113: `zero` says that the row's reserved fields are zero. -/
def checkReserved (p : Params) (zero : Bool) (i : Instr) : Except DecodeError Instr :=
  if p.strictReservedFields && !zero then .error .reservedField else .ok i

/-- The check of R112, then that of R113, for a SPECIAL row that does not use `shamt`. -/
def checkShamt (p : Params) (w : Word) (zero : Bool) (i : Instr) : Except DecodeError Instr :=
  if shamtOf w = 0 then checkReserved p zero i else .error .nonzeroShamt

/-- The gate of R114 before a Tier D row. -/
def checkPresent (present : Bool) (r : Except DecodeError Instr) : Except DecodeError Instr :=
  if present then r else .error .absentExtension

/-- Opcode 0: the function map of R108, with the checks in the order of R127. -/
def decodeSpecial (p : Params) (w : Word) : Except DecodeError Instr :=
  match functOf w with
  | 0x00#6 => checkReserved p (rsOf w == 0) (.sll (rdOf w) (rtOf w) (shamtOf w))
  | 0x02#6 => checkReserved p (rsOf w == 0) (.srl (rdOf w) (rtOf w) (shamtOf w))
  | 0x03#6 => checkReserved p (rsOf w == 0) (.sra (rdOf w) (rtOf w) (shamtOf w))
  | 0x04#6 => checkPresent p.extVarShifts (checkShamt p w true (.sllv (rdOf w) (rtOf w) (rsOf w)))
  | 0x06#6 => checkPresent p.extVarShifts (checkShamt p w true (.srlv (rdOf w) (rtOf w) (rsOf w)))
  | 0x07#6 => checkPresent p.extVarShifts (checkShamt p w true (.srav (rdOf w) (rtOf w) (rsOf w)))
  | 0x08#6 => checkShamt p w (rtOf w == 0 && rdOf w == 0) (.jr (rsOf w))
  | 0x09#6 => checkShamt p w (rtOf w == 0) (.jalr (rdOf w) (rsOf w))
  | 0x10#6 => checkPresent p.extHiloMoves (checkShamt p w (rsOf w == 0 && rtOf w == 0) (.mfhi (rdOf w)))
  | 0x11#6 => checkPresent p.extHiloMoves (checkShamt p w (rtOf w == 0 && rdOf w == 0) (.mthi (rsOf w)))
  | 0x12#6 => checkPresent p.extHiloMoves (checkShamt p w (rsOf w == 0 && rtOf w == 0) (.mflo (rdOf w)))
  | 0x13#6 => checkPresent p.extHiloMoves (checkShamt p w (rtOf w == 0 && rdOf w == 0) (.mtlo (rsOf w)))
  | 0x18#6 => checkShamt p w (rdOf w == 0) (.mult (rsOf w) (rtOf w))
  | 0x19#6 => checkShamt p w (rdOf w == 0) (.multu (rsOf w) (rtOf w))
  | 0x1A#6 => checkShamt p w (rdOf w == 0) (.div (rsOf w) (rtOf w))
  | 0x1B#6 => checkShamt p w (rdOf w == 0) (.divu (rsOf w) (rtOf w))
  | 0x20#6 => checkShamt p w true (.add (rdOf w) (rsOf w) (rtOf w))
  | 0x21#6 => checkShamt p w true (.addu (rdOf w) (rsOf w) (rtOf w))
  | 0x22#6 => checkShamt p w true (.sub (rdOf w) (rsOf w) (rtOf w))
  | 0x23#6 => checkShamt p w true (.subu (rdOf w) (rsOf w) (rtOf w))
  | 0x24#6 => checkShamt p w true (.and (rdOf w) (rsOf w) (rtOf w))
  | 0x25#6 => checkShamt p w true (.or (rdOf w) (rsOf w) (rtOf w))
  | 0x26#6 => checkShamt p w true (.xor (rdOf w) (rsOf w) (rtOf w))
  | 0x2A#6 => checkShamt p w true (.slt (rdOf w) (rsOf w) (rtOf w))
  | 0x2B#6 => checkShamt p w true (.sltu (rdOf w) (rsOf w) (rtOf w))
  | _ => .error .unrecognizedFunct

/-- Opcode 1: the selector map of R111. -/
def decodeRegimm (w : Word) : Except DecodeError Instr :=
  match rtOf w with
  | 0#5 => .ok (.bltz (rsOf w) (immOf w))
  | 1#5 => .ok (.bgez (rsOf w) (immOf w))
  | 16#5 => .ok (.bltzal (rsOf w) (immOf w))
  | 17#5 => .ok (.bgezal (rsOf w) (immOf w))
  | _ => .error .malformedSelector

/-- The decoder (R101, R107, R126): total on every word. -/
def decode (p : Params) (w : Word) : Except DecodeError Instr :=
  match opcodeOf w with
  | 0x00#6 => decodeSpecial p w
  | 0x01#6 => decodeRegimm w
  | 0x02#6 => .ok (.j (targetOf w))
  | 0x03#6 => .ok (.jal (targetOf w))
  | 0x04#6 => .ok (.beq (rsOf w) (rtOf w) (immOf w))
  | 0x05#6 => .ok (.bne (rsOf w) (rtOf w) (immOf w))
  | 0x06#6 => checkReserved p (rtOf w == 0) (.blez (rsOf w) (immOf w))
  | 0x07#6 => checkReserved p (rtOf w == 0) (.bgtz (rsOf w) (immOf w))
  | 0x08#6 => .ok (.addi (rtOf w) (rsOf w) (immOf w))
  | 0x09#6 => .ok (.addiu (rtOf w) (rsOf w) (immOf w))
  | 0x0A#6 => .ok (.slti (rtOf w) (rsOf w) (immOf w))
  | 0x0B#6 => .ok (.sltiu (rtOf w) (rsOf w) (immOf w))
  | 0x0C#6 => .ok (.andi (rtOf w) (rsOf w) (immOf w))
  | 0x0D#6 => .ok (.ori (rtOf w) (rsOf w) (immOf w))
  | 0x0E#6 => .ok (.xori (rtOf w) (rsOf w) (immOf w))
  | 0x0F#6 => checkReserved p (rsOf w == 0) (.lui (rtOf w) (immOf w))
  | 0x20#6 => .ok (.lb (rtOf w) (immOf w) (rsOf w))
  | 0x21#6 => .ok (.lh (rtOf w) (immOf w) (rsOf w))
  | 0x22#6 => .ok (.lwl (rtOf w) (immOf w) (rsOf w))
  | 0x23#6 => .ok (.lw (rtOf w) (immOf w) (rsOf w))
  | 0x24#6 => .ok (.lbu (rtOf w) (immOf w) (rsOf w))
  | 0x25#6 => .ok (.lhu (rtOf w) (immOf w) (rsOf w))
  | 0x26#6 => .ok (.lwr (rtOf w) (immOf w) (rsOf w))
  | 0x28#6 => .ok (.sb (rtOf w) (immOf w) (rsOf w))
  | 0x29#6 => .ok (.sh (rtOf w) (immOf w) (rsOf w))
  | 0x2B#6 => .ok (.sw (rtOf w) (immOf w) (rsOf w))
  | _ => .error .unrecognizedOpcode

/-- The decoder on the four bytes of an instruction, lowest address first (R100). -/
def decodeBytes (p : Params) (b : WordBytes) : Except DecodeError Instr := decode p (decodeWord b)

/-- The host's question about a table row: the instruction of the `nbits` low bits of `w`, laid out as the hardware
stores them (big-endian, R67), under the parameter values R11 decides. -/
def decodeTableWord (nbits w : Nat) : Option Instr :=
  (decodeBytes defaultParams (encodeWord (BitVec.ofNat 32 (w % 2 ^ nbits)))).toOption

/-! ## The encoder -/

/-- An R-type word (R102). -/
def rWord (rs rt rd : Reg) (shamt : BitVec 5) (funct : BitVec 6) : Word := 0x00#6 ++ rs ++ rt ++ rd ++ shamt ++ funct

/-- An I-type word (R103). -/
def iWord (opcode : BitVec 6) (rs rt : Reg) (imm : Half) : Word := opcode ++ rs ++ rt ++ imm

/-- A J-type word (R104). -/
def jWord (opcode : BitVec 6) (target : BitVec 26) : Word := opcode ++ target

/-- The word of an instruction; a field the row ignores (R113) is written as zero (log 22). -/
def encode : Instr → Word
  | .add rd rs rt => rWord rs rt rd 0 0x20#6
  | .addu rd rs rt => rWord rs rt rd 0 0x21#6
  | .sub rd rs rt => rWord rs rt rd 0 0x22#6
  | .subu rd rs rt => rWord rs rt rd 0 0x23#6
  | .and rd rs rt => rWord rs rt rd 0 0x24#6
  | .or rd rs rt => rWord rs rt rd 0 0x25#6
  | .xor rd rs rt => rWord rs rt rd 0 0x26#6
  | .slt rd rs rt => rWord rs rt rd 0 0x2A#6
  | .sltu rd rs rt => rWord rs rt rd 0 0x2B#6
  | .sll rd rt sa => rWord 0 rt rd sa 0x00#6
  | .srl rd rt sa => rWord 0 rt rd sa 0x02#6
  | .sra rd rt sa => rWord 0 rt rd sa 0x03#6
  | .sllv rd rt rs => rWord rs rt rd 0 0x04#6
  | .srlv rd rt rs => rWord rs rt rd 0 0x06#6
  | .srav rd rt rs => rWord rs rt rd 0 0x07#6
  | .addi rt rs imm => iWord 0x08#6 rs rt imm
  | .addiu rt rs imm => iWord 0x09#6 rs rt imm
  | .slti rt rs imm => iWord 0x0A#6 rs rt imm
  | .sltiu rt rs imm => iWord 0x0B#6 rs rt imm
  | .andi rt rs imm => iWord 0x0C#6 rs rt imm
  | .ori rt rs imm => iWord 0x0D#6 rs rt imm
  | .xori rt rs imm => iWord 0x0E#6 rs rt imm
  | .lui rt imm => iWord 0x0F#6 0 rt imm
  | .mult rs rt => rWord rs rt 0 0 0x18#6
  | .multu rs rt => rWord rs rt 0 0 0x19#6
  | .div rs rt => rWord rs rt 0 0 0x1A#6
  | .divu rs rt => rWord rs rt 0 0 0x1B#6
  | .mfhi rd => rWord 0 0 rd 0 0x10#6
  | .mflo rd => rWord 0 0 rd 0 0x12#6
  | .mthi rs => rWord rs 0 0 0 0x11#6
  | .mtlo rs => rWord rs 0 0 0 0x13#6
  | .beq rs rt offset => iWord 0x04#6 rs rt offset
  | .bne rs rt offset => iWord 0x05#6 rs rt offset
  | .blez rs offset => iWord 0x06#6 rs 0 offset
  | .bgtz rs offset => iWord 0x07#6 rs 0 offset
  | .bltz rs offset => iWord 0x01#6 rs 0#5 offset
  | .bgez rs offset => iWord 0x01#6 rs 1#5 offset
  | .bltzal rs offset => iWord 0x01#6 rs 16#5 offset
  | .bgezal rs offset => iWord 0x01#6 rs 17#5 offset
  | .j target => jWord 0x02#6 target
  | .jal target => jWord 0x03#6 target
  | .jr rs => rWord rs 0 0 0 0x08#6
  | .jalr rd rs => rWord rs 0 rd 0 0x09#6
  | .lb rt offset base => iWord 0x20#6 base rt offset
  | .lbu rt offset base => iWord 0x24#6 base rt offset
  | .lh rt offset base => iWord 0x21#6 base rt offset
  | .lhu rt offset base => iWord 0x25#6 base rt offset
  | .lw rt offset base => iWord 0x23#6 base rt offset
  | .lwl rt offset base => iWord 0x22#6 base rt offset
  | .lwr rt offset base => iWord 0x26#6 base rt offset
  | .sb rt offset base => iWord 0x28#6 base rt offset
  | .sh rt offset base => iWord 0x29#6 base rt offset
  | .sw rt offset base => iWord 0x2B#6 base rt offset

/-! ## The opcode table (R126) -/

/-- The parameter a row requires (R114). -/
inductive RowGate where
  | always
  | varShifts
  | hiloMoves
  deriving DecidableEq, Repr

/-- A row of spec/opcode_table.json: `w` matches it when `w & mask = pattern`, with `maskStrict` for `mask` in strict
mode. -/
structure OpcodeRow where
  mnemonic : String
  pattern : Word
  mask : Word
  maskStrict : Word
  gate : RowGate
  deriving DecidableEq, Repr

/-- The rows of R210 to R218. -/
def aluRows : List OpcodeRow :=
  [⟨"ADD", 0x00000020#32, 0xFC0007FF#32, 0xFC0007FF#32, .always⟩,
   ⟨"ADDU", 0x00000021#32, 0xFC0007FF#32, 0xFC0007FF#32, .always⟩,
   ⟨"SUB", 0x00000022#32, 0xFC0007FF#32, 0xFC0007FF#32, .always⟩,
   ⟨"SUBU", 0x00000023#32, 0xFC0007FF#32, 0xFC0007FF#32, .always⟩,
   ⟨"AND", 0x00000024#32, 0xFC0007FF#32, 0xFC0007FF#32, .always⟩,
   ⟨"OR", 0x00000025#32, 0xFC0007FF#32, 0xFC0007FF#32, .always⟩,
   ⟨"XOR", 0x00000026#32, 0xFC0007FF#32, 0xFC0007FF#32, .always⟩,
   ⟨"SLT", 0x0000002A#32, 0xFC0007FF#32, 0xFC0007FF#32, .always⟩,
   ⟨"SLTU", 0x0000002B#32, 0xFC0007FF#32, 0xFC0007FF#32, .always⟩]

/-- The rows of R219 to R224. -/
def shiftRows : List OpcodeRow :=
  [⟨"SLL", 0x00000000#32, 0xFC00003F#32, 0xFFE0003F#32, .always⟩,
   ⟨"SRL", 0x00000002#32, 0xFC00003F#32, 0xFFE0003F#32, .always⟩,
   ⟨"SRA", 0x00000003#32, 0xFC00003F#32, 0xFFE0003F#32, .always⟩,
   ⟨"SLLV", 0x00000004#32, 0xFC0007FF#32, 0xFC0007FF#32, .varShifts⟩,
   ⟨"SRLV", 0x00000006#32, 0xFC0007FF#32, 0xFC0007FF#32, .varShifts⟩,
   ⟨"SRAV", 0x00000007#32, 0xFC0007FF#32, 0xFC0007FF#32, .varShifts⟩]

/-- The rows of R230 to R237. -/
def immediateRows : List OpcodeRow :=
  [⟨"ADDI", 0x20000000#32, 0xFC000000#32, 0xFC000000#32, .always⟩,
   ⟨"ADDIU", 0x24000000#32, 0xFC000000#32, 0xFC000000#32, .always⟩,
   ⟨"SLTI", 0x28000000#32, 0xFC000000#32, 0xFC000000#32, .always⟩,
   ⟨"SLTIU", 0x2C000000#32, 0xFC000000#32, 0xFC000000#32, .always⟩,
   ⟨"ANDI", 0x30000000#32, 0xFC000000#32, 0xFC000000#32, .always⟩,
   ⟨"ORI", 0x34000000#32, 0xFC000000#32, 0xFC000000#32, .always⟩,
   ⟨"XORI", 0x38000000#32, 0xFC000000#32, 0xFC000000#32, .always⟩,
   ⟨"LUI", 0x3C000000#32, 0xFC000000#32, 0xFFE00000#32, .always⟩]

/-- The rows of R310 to R317. -/
def mulDivRows : List OpcodeRow :=
  [⟨"MULT", 0x00000018#32, 0xFC0007FF#32, 0xFC00FFFF#32, .always⟩,
   ⟨"MULTU", 0x00000019#32, 0xFC0007FF#32, 0xFC00FFFF#32, .always⟩,
   ⟨"DIV", 0x0000001A#32, 0xFC0007FF#32, 0xFC00FFFF#32, .always⟩,
   ⟨"DIVU", 0x0000001B#32, 0xFC0007FF#32, 0xFC00FFFF#32, .always⟩,
   ⟨"MFHI", 0x00000010#32, 0xFC0007FF#32, 0xFFFF07FF#32, .hiloMoves⟩,
   ⟨"MFLO", 0x00000012#32, 0xFC0007FF#32, 0xFFFF07FF#32, .hiloMoves⟩,
   ⟨"MTHI", 0x00000011#32, 0xFC0007FF#32, 0xFC1FFFFF#32, .hiloMoves⟩,
   ⟨"MTLO", 0x00000013#32, 0xFC0007FF#32, 0xFC1FFFFF#32, .hiloMoves⟩]

/-- The rows of R404 to R411. -/
def branchRows : List OpcodeRow :=
  [⟨"BEQ", 0x10000000#32, 0xFC000000#32, 0xFC000000#32, .always⟩,
   ⟨"BNE", 0x14000000#32, 0xFC000000#32, 0xFC000000#32, .always⟩,
   ⟨"BLEZ", 0x18000000#32, 0xFC000000#32, 0xFC1F0000#32, .always⟩,
   ⟨"BGTZ", 0x1C000000#32, 0xFC000000#32, 0xFC1F0000#32, .always⟩,
   ⟨"BLTZ", 0x04000000#32, 0xFC1F0000#32, 0xFC1F0000#32, .always⟩,
   ⟨"BGEZ", 0x04010000#32, 0xFC1F0000#32, 0xFC1F0000#32, .always⟩,
   ⟨"BLTZAL", 0x04100000#32, 0xFC1F0000#32, 0xFC1F0000#32, .always⟩,
   ⟨"BGEZAL", 0x04110000#32, 0xFC1F0000#32, 0xFC1F0000#32, .always⟩]

/-- The rows of R413 to R416. -/
def jumpRows : List OpcodeRow :=
  [⟨"J", 0x08000000#32, 0xFC000000#32, 0xFC000000#32, .always⟩,
   ⟨"JAL", 0x0C000000#32, 0xFC000000#32, 0xFC000000#32, .always⟩,
   ⟨"JR", 0x00000008#32, 0xFC0007FF#32, 0xFC1FFFFF#32, .always⟩,
   ⟨"JALR", 0x00000009#32, 0xFC0007FF#32, 0xFC1F07FF#32, .always⟩]

/-- The rows of R506 to R512. -/
def loadRows : List OpcodeRow :=
  [⟨"LB", 0x80000000#32, 0xFC000000#32, 0xFC000000#32, .always⟩,
   ⟨"LBU", 0x90000000#32, 0xFC000000#32, 0xFC000000#32, .always⟩,
   ⟨"LH", 0x84000000#32, 0xFC000000#32, 0xFC000000#32, .always⟩,
   ⟨"LHU", 0x94000000#32, 0xFC000000#32, 0xFC000000#32, .always⟩,
   ⟨"LW", 0x8C000000#32, 0xFC000000#32, 0xFC000000#32, .always⟩,
   ⟨"LWL", 0x88000000#32, 0xFC000000#32, 0xFC000000#32, .always⟩,
   ⟨"LWR", 0x98000000#32, 0xFC000000#32, 0xFC000000#32, .always⟩]

/-- The rows of R513 to R515. -/
def storeRows : List OpcodeRow :=
  [⟨"SB", 0xA0000000#32, 0xFC000000#32, 0xFC000000#32, .always⟩,
   ⟨"SH", 0xA4000000#32, 0xFC000000#32, 0xFC000000#32, .always⟩,
   ⟨"SW", 0xAC000000#32, 0xFC000000#32, 0xFC000000#32, .always⟩]

/-- All 53 rows. -/
def opcodeTable : List OpcodeRow :=
  aluRows ++ shiftRows ++ immediateRows ++ mulDivRows ++ branchRows ++ jumpRows ++ loadRows ++ storeRows

/-- The row exists on a machine with these parameters (R114). -/
def OpcodeRow.present (p : Params) (r : OpcodeRow) : Bool :=
  match r.gate with
  | .always => true
  | .varShifts => p.extVarShifts
  | .hiloMoves => p.extHiloMoves

/-- The word matches the row (R126). -/
def OpcodeRow.accepts (p : Params) (r : OpcodeRow) (w : Word) : Bool :=
  r.present p && (w &&& (if p.strictReservedFields then r.maskStrict else r.mask)) == r.pattern

/-- The row's name in spec/opcode_table.json. -/
def Instr.mnemonic : Instr → String
  | .add _ _ _ => "ADD"
  | .addu _ _ _ => "ADDU"
  | .sub _ _ _ => "SUB"
  | .subu _ _ _ => "SUBU"
  | .and _ _ _ => "AND"
  | .or _ _ _ => "OR"
  | .xor _ _ _ => "XOR"
  | .slt _ _ _ => "SLT"
  | .sltu _ _ _ => "SLTU"
  | .sll _ _ _ => "SLL"
  | .srl _ _ _ => "SRL"
  | .sra _ _ _ => "SRA"
  | .sllv _ _ _ => "SLLV"
  | .srlv _ _ _ => "SRLV"
  | .srav _ _ _ => "SRAV"
  | .addi _ _ _ => "ADDI"
  | .addiu _ _ _ => "ADDIU"
  | .slti _ _ _ => "SLTI"
  | .sltiu _ _ _ => "SLTIU"
  | .andi _ _ _ => "ANDI"
  | .ori _ _ _ => "ORI"
  | .xori _ _ _ => "XORI"
  | .lui _ _ => "LUI"
  | .mult _ _ => "MULT"
  | .multu _ _ => "MULTU"
  | .div _ _ => "DIV"
  | .divu _ _ => "DIVU"
  | .mfhi _ => "MFHI"
  | .mflo _ => "MFLO"
  | .mthi _ => "MTHI"
  | .mtlo _ => "MTLO"
  | .beq _ _ _ => "BEQ"
  | .bne _ _ _ => "BNE"
  | .blez _ _ => "BLEZ"
  | .bgtz _ _ => "BGTZ"
  | .bltz _ _ => "BLTZ"
  | .bgez _ _ => "BGEZ"
  | .bltzal _ _ => "BLTZAL"
  | .bgezal _ _ => "BGEZAL"
  | .j _ => "J"
  | .jal _ => "JAL"
  | .jr _ => "JR"
  | .jalr _ _ => "JALR"
  | .lb _ _ _ => "LB"
  | .lbu _ _ _ => "LBU"
  | .lh _ _ _ => "LH"
  | .lhu _ _ _ => "LHU"
  | .lw _ _ _ => "LW"
  | .lwl _ _ _ => "LWL"
  | .lwr _ _ _ => "LWR"
  | .sb _ _ _ => "SB"
  | .sh _ _ _ => "SH"
  | .sw _ _ _ => "SW"

end Sys2Proof
end

