-- ==== Sys2Proof/Machine/Fetch.lean ====
section
/-! DEFINITION. Fetch and decode (spec/40_step.md R141, R142), and placing an instruction where the next fetch
reads it. -/

namespace Sys2Proof.Machine

/-- A step begins: no request of it has gone out yet. -/
def State.begin (s : State) : State := { s with requests := [] }

/-- What fetch and decode answer: the instruction and the state after the fetch request, or the end of the step. -/
inductive Fetched where
  | run (i : Instr) (s : State)
  | stop (o : Outcome)

/-- Phases 1 and 2 (R141, R142): one read request at `pc`, unaligned `pc` passed unchanged (R71); then the decoder, every
failure of which is InvalidInstruction (R127). -/
def State.fetch (s : State) : Fetched :=
  let sent := s.begin.issue (.read s.pc 4)
  match s.mem.read s.pc with
  | .error c => .stop (sent.raise (.memoryError c))
  | .ok b =>
    match decodeBytes s.params b with
    | .error _ => .stop (sent.raise .invalidInstruction)
    | .ok i => .run i sent

/-- The instruction word `w` stored at `pc`, where the next step fetches; the state itself where the memory has no
aligned word there (log 7). -/
def State.placeAtPc (s : State) (w : Word) : State :=
  match s.mem.write s.pc (encodeWord w) with
  | .ok m => { s with mem := m }
  | .error _ => s

end Sys2Proof.Machine
end

