-- ==== Sys2Proof/Machine/Step.lean ====
section
/-! DEFINITION. One step (spec/40_step.md R140, R155). -/

namespace Sys2Proof.Machine

/-- Fetch, decode, execute (R155). The step's status is in the next state (R600). -/
def step (s : State) : Host.Outcome State Fault Refusal :=
  match s.fetch with
  | .run i s' => exec i s'
  | .stop o => o

/-- `s` with the instruction of the `nbits` low bits of `w` stored where `step` fetches next. It stands for the host's
loading of an image (R702; log 7). -/
def State.withFetchWord (s : State) (nbits w : Nat) : State := s.placeAtPc (BitVec.ofNat 32 (w % 2 ^ nbits))

end Sys2Proof.Machine
end

