-- ==== Sys2Proof/Asm.lean ====
section
/-! DEFINITION. The assembler forms and pseudo-instructions of spec/30_encoding.md R130, R131 and the register names of
spec/10_state.md R22. They have "no effect on the hardware" (R130): no meaning uses this file (log 24). -/

namespace Sys2Proof

/-- The software name of a register (R22). -/
def Reg.name (r : Reg) : String :=
  match r.toNat with
  | 0 => "$zero"
  | 1 => "$at"
  | 2 => "$v0"
  | 3 => "$v1"
  | 4 => "$a0"
  | 5 => "$a1"
  | 6 => "$a2"
  | 7 => "$a3"
  | 8 => "$t0"
  | 9 => "$t1"
  | 10 => "$t2"
  | 11 => "$t3"
  | 12 => "$t4"
  | 13 => "$t5"
  | 14 => "$t6"
  | 15 => "$t7"
  | 16 => "$s0"
  | 17 => "$s1"
  | 18 => "$s2"
  | 19 => "$s3"
  | 20 => "$s4"
  | 21 => "$s5"
  | 22 => "$s6"
  | 23 => "$s7"
  | 24 => "$t8"
  | 25 => "$t9"
  | 26 => "$k0"
  | 27 => "$k1"
  | 28 => "$gp"
  | 29 => "$sp"
  | 30 => "$fp"
  | _ => "$ra"

/-- A signed immediate or offset as the assembler writes it. -/
def signedText (v : Half) : String := toString v.toInt

/-- An unsigned field as the assembler writes it. -/
def unsignedText {n : Nat} (v : BitVec n) : String := toString v.toNat

/-- A mnemonic and its operands, separated by commas. -/
def asmLine (mnemonic : String) (operands : List String) : String :=
  mnemonic ++ " " ++ String.intercalate ", " operands

/-- `offset(base)` of the loads and stores. -/
def asmAddress (offset : Half) (base : Reg) : String := signedText offset ++ "(" ++ base.name ++ ")"

/-- The target of a branch at address `at`, by R130's `imm16 = (label - (branch address + 4)) / 4`. -/
def branchLabel (at_ : Word) (offset : Half) : Word := at_ + 4#32 + (offset.signExtend 32 <<< 2)

/-- `imm16 = (label - (branch address + 4)) / 4` (R130). -/
def branchOffset (at_ label : Word) : Half := (label - (at_ + 4#32)).extractLsb' 2 16

/-- `target26 = label[27:2]` (R130). -/
def jumpField (label : Word) : BitVec 26 := label.extractLsb' 2 26

/-- The assembler's text of an instruction (R130); a branch or jump shows its raw field. -/
def Instr.asm (i : Instr) : String :=
  match i with
  | .add rd rs rt => asmLine "add" [rd.name, rs.name, rt.name]
  | .addu rd rs rt => asmLine "addu" [rd.name, rs.name, rt.name]
  | .sub rd rs rt => asmLine "sub" [rd.name, rs.name, rt.name]
  | .subu rd rs rt => asmLine "subu" [rd.name, rs.name, rt.name]
  | .and rd rs rt => asmLine "and" [rd.name, rs.name, rt.name]
  | .or rd rs rt => asmLine "or" [rd.name, rs.name, rt.name]
  | .xor rd rs rt => asmLine "xor" [rd.name, rs.name, rt.name]
  | .slt rd rs rt => asmLine "slt" [rd.name, rs.name, rt.name]
  | .sltu rd rs rt => asmLine "sltu" [rd.name, rs.name, rt.name]
  | .sll rd rt sa => asmLine "sll" [rd.name, rt.name, unsignedText sa]
  | .srl rd rt sa => asmLine "srl" [rd.name, rt.name, unsignedText sa]
  | .sra rd rt sa => asmLine "sra" [rd.name, rt.name, unsignedText sa]
  | .sllv rd rt rs => asmLine "sllv" [rd.name, rt.name, rs.name]
  | .srlv rd rt rs => asmLine "srlv" [rd.name, rt.name, rs.name]
  | .srav rd rt rs => asmLine "srav" [rd.name, rt.name, rs.name]
  | .addi rt rs imm => asmLine "addi" [rt.name, rs.name, signedText imm]
  | .addiu rt rs imm => asmLine "addiu" [rt.name, rs.name, signedText imm]
  | .slti rt rs imm => asmLine "slti" [rt.name, rs.name, signedText imm]
  | .sltiu rt rs imm => asmLine "sltiu" [rt.name, rs.name, signedText imm]
  | .andi rt rs imm => asmLine "andi" [rt.name, rs.name, unsignedText imm]
  | .ori rt rs imm => asmLine "ori" [rt.name, rs.name, unsignedText imm]
  | .xori rt rs imm => asmLine "xori" [rt.name, rs.name, unsignedText imm]
  | .lui rt imm => asmLine "lui" [rt.name, unsignedText imm]
  | .mult rs rt => asmLine "mult" [rs.name, rt.name]
  | .multu rs rt => asmLine "multu" [rs.name, rt.name]
  | .div rs rt => asmLine "div" [rs.name, rt.name]
  | .divu rs rt => asmLine "divu" [rs.name, rt.name]
  | .mfhi rd => asmLine "mfhi" [rd.name]
  | .mflo rd => asmLine "mflo" [rd.name]
  | .mthi rs => asmLine "mthi" [rs.name]
  | .mtlo rs => asmLine "mtlo" [rs.name]
  | .beq rs rt offset => asmLine "beq" [rs.name, rt.name, signedText offset]
  | .bne rs rt offset => asmLine "bne" [rs.name, rt.name, signedText offset]
  | .blez rs offset => asmLine "blez" [rs.name, signedText offset]
  | .bgtz rs offset => asmLine "bgtz" [rs.name, signedText offset]
  | .bltz rs offset => asmLine "bltz" [rs.name, signedText offset]
  | .bgez rs offset => asmLine "bgez" [rs.name, signedText offset]
  | .bltzal rs offset => asmLine "bltzal" [rs.name, signedText offset]
  | .bgezal rs offset => asmLine "bgezal" [rs.name, signedText offset]
  | .j target => asmLine "j" [unsignedText target]
  | .jal target => asmLine "jal" [unsignedText target]
  | .jr rs => asmLine "jr" [rs.name]
  | .jalr rd rs => asmLine "jalr" [rd.name, rs.name]
  | .lb rt offset base => asmLine "lb" [rt.name, asmAddress offset base]
  | .lbu rt offset base => asmLine "lbu" [rt.name, asmAddress offset base]
  | .lh rt offset base => asmLine "lh" [rt.name, asmAddress offset base]
  | .lhu rt offset base => asmLine "lhu" [rt.name, asmAddress offset base]
  | .lw rt offset base => asmLine "lw" [rt.name, asmAddress offset base]
  | .lwl rt offset base => asmLine "lwl" [rt.name, asmAddress offset base]
  | .lwr rt offset base => asmLine "lwr" [rt.name, asmAddress offset base]
  | .sb rt offset base => asmLine "sb" [rt.name, asmAddress offset base]
  | .sh rt offset base => asmLine "sh" [rt.name, asmAddress offset base]
  | .sw rt offset base => asmLine "sw" [rt.name, asmAddress offset base]

/-- `$at`, the assembler's own register. -/
def atReg : Reg := 1#5

/-- The pseudo-instructions of R131. Branches take their offset field as their expansion's branch does. -/
inductive Pseudo where
  | nop
  | move (rd rs : Reg)
  | li (rt : Reg) (v : Word)
  | la (rt : Reg) (sym : Word)
  | b (offset : Half)
  | bal (offset : Half)
  | beqz (rs : Reg) (offset : Half)
  | bnez (rs : Reg) (offset : Half)
  | neg (rd rs : Reg)
  | negu (rd rs : Reg)
  | blt (rs rt : Reg) (offset : Half)
  | bge (rs rt : Reg) (offset : Half)
  | bgt (rs rt : Reg) (offset : Half)
  | ble (rs rt : Reg) (offset : Half)
  | bltu (rs rt : Reg) (offset : Half)
  | bgeu (rs rt : Reg) (offset : Half)
  | bgtu (rs rt : Reg) (offset : Half)
  | bleu (rs rt : Reg) (offset : Half)
  | mul (rd rs rt : Reg)
  deriving DecidableEq, Repr

/-- `lui rt, v[31:16] ; ori rt, rt, v[15:0]`. -/
def loadHalves (rt : Reg) (v : Word) : List Instr := [.lui rt (v.extractLsb' 16 16), .ori rt rt (v.extractLsb' 0 16)]

/-- The expansion of R131, using only executed instructions. -/
def Pseudo.expand : Pseudo → List Instr
  | .nop => [.sll 0 0 0]
  | .move rd rs => [.addu rd rs 0]
  | .li rt v =>
    if -32768 ≤ v.toInt ∧ v.toInt ≤ 32767 then [.addiu rt 0 (v.extractLsb' 0 16)]
    else if v.toNat ≤ 65535 then [.ori rt 0 (v.extractLsb' 0 16)]
    else loadHalves rt v
  | .la rt sym => loadHalves rt sym
  | .b offset => [.beq 0 0 offset]
  | .bal offset => [.bgezal 0 offset]
  | .beqz rs offset => [.beq rs 0 offset]
  | .bnez rs offset => [.bne rs 0 offset]
  | .neg rd rs => [.sub rd 0 rs]
  | .negu rd rs => [.subu rd 0 rs]
  | .blt rs rt offset => [.slt atReg rs rt, .bne atReg 0 offset]
  | .bge rs rt offset => [.slt atReg rs rt, .beq atReg 0 offset]
  | .bgt rs rt offset => [.slt atReg rt rs, .bne atReg 0 offset]
  | .ble rs rt offset => [.slt atReg rt rs, .beq atReg 0 offset]
  | .bltu rs rt offset => [.sltu atReg rs rt, .bne atReg 0 offset]
  | .bgeu rs rt offset => [.sltu atReg rs rt, .beq atReg 0 offset]
  | .bgtu rs rt offset => [.sltu atReg rt rs, .bne atReg 0 offset]
  | .bleu rs rt offset => [.sltu atReg rt rs, .beq atReg 0 offset]
  | .mul rd rs rt => [.mult rs rt, .mflo rd]

end Sys2Proof
end

