-- ==== Sys2Proof/Machine/Classes.lean ====
section
/-! DEFINITION. What the spec's tables say of each instruction: its class (spec/40_step.md R144, R145), the general
register it writes (spec/10_state.md R23) and the memory requests it makes (spec/20_memory.md R75). Statements compare
the machine with these tables; no meaning uses them. -/

namespace Sys2Proof.Machine

/-- The own-control-transfer class (R144). Every other instruction is in the common-tail class (R145). -/
def ownControl : Instr → Bool
  | .add _ _ _ => false
  | .addu _ _ _ => false
  | .sub _ _ _ => false
  | .subu _ _ _ => false
  | .and _ _ _ => false
  | .or _ _ _ => false
  | .xor _ _ _ => false
  | .slt _ _ _ => false
  | .sltu _ _ _ => false
  | .sll _ _ _ => false
  | .srl _ _ _ => false
  | .sra _ _ _ => false
  | .sllv _ _ _ => false
  | .srlv _ _ _ => false
  | .srav _ _ _ => false
  | .addi _ _ _ => false
  | .addiu _ _ _ => false
  | .slti _ _ _ => false
  | .sltiu _ _ _ => false
  | .andi _ _ _ => false
  | .ori _ _ _ => false
  | .xori _ _ _ => false
  | .lui _ _ => false
  | .mult _ _ => false
  | .multu _ _ => false
  | .div _ _ => false
  | .divu _ _ => false
  | .mfhi _ => false
  | .mflo _ => false
  | .mthi _ => false
  | .mtlo _ => false
  | .beq _ _ _ => true
  | .bne _ _ _ => true
  | .blez _ _ => true
  | .bgtz _ _ => true
  | .bltz _ _ => true
  | .bgez _ _ => true
  | .bltzal _ _ => true
  | .bgezal _ _ => true
  | .j _ => true
  | .jal _ => true
  | .jr _ => true
  | .jalr _ _ => true
  | .lb _ _ _ => false
  | .lbu _ _ _ => false
  | .lh _ _ _ => false
  | .lhu _ _ _ => false
  | .lw _ _ _ => false
  | .lwl _ _ _ => false
  | .lwr _ _ _ => false
  | .sb _ _ _ => false
  | .sh _ _ _ => false
  | .sw _ _ _ => false

/-- The general register the instruction writes (R23). -/
def destReg : Instr → Option Reg
  | .add rd _ _ => some rd
  | .addu rd _ _ => some rd
  | .sub rd _ _ => some rd
  | .subu rd _ _ => some rd
  | .and rd _ _ => some rd
  | .or rd _ _ => some rd
  | .xor rd _ _ => some rd
  | .slt rd _ _ => some rd
  | .sltu rd _ _ => some rd
  | .sll rd _ _ => some rd
  | .srl rd _ _ => some rd
  | .sra rd _ _ => some rd
  | .sllv rd _ _ => some rd
  | .srlv rd _ _ => some rd
  | .srav rd _ _ => some rd
  | .addi rt _ _ => some rt
  | .addiu rt _ _ => some rt
  | .slti rt _ _ => some rt
  | .sltiu rt _ _ => some rt
  | .andi rt _ _ => some rt
  | .ori rt _ _ => some rt
  | .xori rt _ _ => some rt
  | .lui rt _ => some rt
  | .mult _ _ => none
  | .multu _ _ => none
  | .div _ _ => none
  | .divu _ _ => none
  | .mfhi rd => some rd
  | .mflo rd => some rd
  | .mthi _ => none
  | .mtlo _ => none
  | .beq _ _ _ => none
  | .bne _ _ _ => none
  | .blez _ _ => none
  | .bgtz _ _ => none
  | .bltz _ _ => none
  | .bgez _ _ => none
  | .bltzal _ _ => some 31#5
  | .bgezal _ _ => some 31#5
  | .j _ => none
  | .jal _ => some 31#5
  | .jr _ => none
  | .jalr rd _ => some rd
  | .lb rt _ _ => some rt
  | .lbu rt _ _ => some rt
  | .lh rt _ _ => some rt
  | .lhu rt _ _ => some rt
  | .lw rt _ _ => some rt
  | .lwl rt _ _ => some rt
  | .lwr rt _ _ => some rt
  | .sb _ _ _ => none
  | .sh _ _ _ => none
  | .sw _ _ _ => none

/-- The instruction writes HI or LO (R28). -/
def writesHiLo : Instr → Bool
  | .add _ _ _ => false
  | .addu _ _ _ => false
  | .sub _ _ _ => false
  | .subu _ _ _ => false
  | .and _ _ _ => false
  | .or _ _ _ => false
  | .xor _ _ _ => false
  | .slt _ _ _ => false
  | .sltu _ _ _ => false
  | .sll _ _ _ => false
  | .srl _ _ _ => false
  | .sra _ _ _ => false
  | .sllv _ _ _ => false
  | .srlv _ _ _ => false
  | .srav _ _ _ => false
  | .addi _ _ _ => false
  | .addiu _ _ _ => false
  | .slti _ _ _ => false
  | .sltiu _ _ _ => false
  | .andi _ _ _ => false
  | .ori _ _ _ => false
  | .xori _ _ _ => false
  | .lui _ _ => false
  | .mult _ _ => true
  | .multu _ _ => true
  | .div _ _ => true
  | .divu _ _ => true
  | .mfhi _ => false
  | .mflo _ => false
  | .mthi _ => true
  | .mtlo _ => true
  | .beq _ _ _ => false
  | .bne _ _ _ => false
  | .blez _ _ => false
  | .bgtz _ _ => false
  | .bltz _ _ => false
  | .bgez _ _ => false
  | .bltzal _ _ => false
  | .bgezal _ _ => false
  | .j _ => false
  | .jal _ => false
  | .jr _ => false
  | .jalr _ _ => false
  | .lb _ _ _ => false
  | .lbu _ _ _ => false
  | .lh _ _ _ => false
  | .lhu _ _ _ => false
  | .lw _ _ _ => false
  | .lwl _ _ _ => false
  | .lwr _ _ _ => false
  | .sb _ _ _ => false
  | .sh _ _ _ => false
  | .sw _ _ _ => false

/-- The instruction stores to memory (R75). -/
def isStore : Instr → Bool
  | .add _ _ _ => false
  | .addu _ _ _ => false
  | .sub _ _ _ => false
  | .subu _ _ _ => false
  | .and _ _ _ => false
  | .or _ _ _ => false
  | .xor _ _ _ => false
  | .slt _ _ _ => false
  | .sltu _ _ _ => false
  | .sll _ _ _ => false
  | .srl _ _ _ => false
  | .sra _ _ _ => false
  | .sllv _ _ _ => false
  | .srlv _ _ _ => false
  | .srav _ _ _ => false
  | .addi _ _ _ => false
  | .addiu _ _ _ => false
  | .slti _ _ _ => false
  | .sltiu _ _ _ => false
  | .andi _ _ _ => false
  | .ori _ _ _ => false
  | .xori _ _ _ => false
  | .lui _ _ => false
  | .mult _ _ => false
  | .multu _ _ => false
  | .div _ _ => false
  | .divu _ _ => false
  | .mfhi _ => false
  | .mflo _ => false
  | .mthi _ => false
  | .mtlo _ => false
  | .beq _ _ _ => false
  | .bne _ _ _ => false
  | .blez _ _ => false
  | .bgtz _ _ => false
  | .bltz _ _ => false
  | .bgez _ _ => false
  | .bltzal _ _ => false
  | .bgezal _ _ => false
  | .j _ => false
  | .jal _ => false
  | .jr _ => false
  | .jalr _ _ => false
  | .lb _ _ _ => false
  | .lbu _ _ _ => false
  | .lh _ _ _ => false
  | .lhu _ _ _ => false
  | .lw _ _ _ => false
  | .lwl _ _ _ => false
  | .lwr _ _ _ => false
  | .sb _ _ _ => true
  | .sh _ _ _ => true
  | .sw _ _ _ => true

/-- The data address of a load or store as its offset and base register (R500). -/
def dataOperand : Instr → Option (Half × Reg)
  | .add _ _ _ => none
  | .addu _ _ _ => none
  | .sub _ _ _ => none
  | .subu _ _ _ => none
  | .and _ _ _ => none
  | .or _ _ _ => none
  | .xor _ _ _ => none
  | .slt _ _ _ => none
  | .sltu _ _ _ => none
  | .sll _ _ _ => none
  | .srl _ _ _ => none
  | .sra _ _ _ => none
  | .sllv _ _ _ => none
  | .srlv _ _ _ => none
  | .srav _ _ _ => none
  | .addi _ _ _ => none
  | .addiu _ _ _ => none
  | .slti _ _ _ => none
  | .sltiu _ _ _ => none
  | .andi _ _ _ => none
  | .ori _ _ _ => none
  | .xori _ _ _ => none
  | .lui _ _ => none
  | .mult _ _ => none
  | .multu _ _ => none
  | .div _ _ => none
  | .divu _ _ => none
  | .mfhi _ => none
  | .mflo _ => none
  | .mthi _ => none
  | .mtlo _ => none
  | .beq _ _ _ => none
  | .bne _ _ _ => none
  | .blez _ _ => none
  | .bgtz _ _ => none
  | .bltz _ _ => none
  | .bgez _ _ => none
  | .bltzal _ _ => none
  | .bgezal _ _ => none
  | .j _ => none
  | .jal _ => none
  | .jr _ => none
  | .jalr _ _ => none
  | .lb _ offset base => some (offset, base)
  | .lbu _ offset base => some (offset, base)
  | .lh _ offset base => some (offset, base)
  | .lhu _ offset base => some (offset, base)
  | .lw _ offset base => some (offset, base)
  | .lwl _ offset base => some (offset, base)
  | .lwr _ offset base => some (offset, base)
  | .sb _ offset base => some (offset, base)
  | .sh _ offset base => some (offset, base)
  | .sw _ offset base => some (offset, base)

end Sys2Proof.Machine
end

