-- ==== Sys2Proof/Machine/HostPort.lean ====
section
/-! DEFINITION. The host port (spec/10_state.md R31, R34, R35; spec/60_exceptions.md R605, R606;
spec/70_reset_and_hazards.md R700, R701). -/

namespace Sys2Proof.Machine

/-- The calls of R35. -/
inductive HostCall where
  | reset
  | getRegister (i : Int)
  | setRegister (i : Int) (v : Word)
  | getPc
  | setPc (v : Word)
  | step
  /-- R31, R618: any level and any sink are accepted (log 18). -/
  | setDebugLevel (level : Int) (sink : String)
  deriving DecidableEq, Repr

/-- The responses of R35. -/
inductive HostReply where
  | none
  | value (v : Word)
  | status (st : Status)
  /-- R605. -/
  | invalidArgument
  deriving DecidableEq, Repr

/-- `create(memory)` (R34, R701): it cannot fail. -/
def createCore (p : Params) (m : Memory) : State := zeroState p m

/-- `free` (R34): the core ends and the memory is as it was. -/
def freeCore (s : State) : Memory := s.mem

/-- `reset` (R700): every piece of core state as R33 says, with no memory request. The records of the last step go with
it (log 19). -/
def resetCore (s : State) : State := zeroState s.params s.mem

/-- A host index as a register number: `none` outside 0..31 (R605). -/
def hostIndex (i : Int) : Option Reg := if 0 ≤ i ∧ i < 32 then some (BitVec.ofNat 5 i.toNat) else none

/-- `set_pc(v)` (R35, `SET_PC_NEXT`). -/
def setPc (s : State) (v : Word) : State :=
  match s.params.setPcNext with
  | .plus4 => { s with pc := v, nextPc := v + 4#32 }
  | .keep => { s with pc := v }

/-- What the host reads of an outcome: the status and the state after it. -/
def replyOf (s : State) (o : Outcome) : HostReply × State :=
  match o with
  | .next t => (match t.status with | some st => .status st | none => .none, t)
  | .fault _ => (.none, s)
  | .refused _ => (.none, s)

/-- One transaction on the host port (R35). -/
def hostCall (c : HostCall) (s : State) : HostReply × State :=
  match c with
  | .reset => (.none, resetCore s)
  | .getRegister i =>
    match hostIndex i with
    | some r => (.value (s.getReg r), s)
    | none => (.invalidArgument, s)
  | .setRegister i v =>
    match hostIndex i with
    | some r => (.none, s.setReg r v)
    | none => (.invalidArgument, s)
  | .getPc => (.value s.pc, s)
  | .setPc v => (.none, setPc s v)
  | .step => replyOf s (step s)
  | .setDebugLevel _ _ => (.none, s)

/-- The state after a sequence of calls. -/
def hostCalls : List HostCall → State → State
  | [], s => s
  | c :: cs, s => hostCalls cs (hostCall c s).2

/-- The numeric codes of R606. -/
def Status.code : Status → Nat
  | .success => 0
  | .invalidInstruction => 1
  | .invalidAlignment => 2
  | .arithmeticOverflow => 3
  | .memoryError _ => 4

/-- The code of a reply that carries one (R606). -/
def HostReply.code : HostReply → Option Nat
  | .none => Option.none
  | .value _ => Option.none
  | .status st => some st.code
  | .invalidArgument => some 5

end Sys2Proof.Machine
end

