-- ==== Sys2Proof/Safety.lean ====
section
/-! DEFINITION. What counts as a safe step and a safe run, and the driver's duties that the spec states
(spec/70_reset_and_hazards.md R702, R704). -/

namespace Sys2Proof

open Machine

/-- The step from `s` ends with Success, in `t`. -/
def Succeeds (s t : State) : Prop := step s = .next t ∧ t.status = some .success

/-- The step from `s` ends with the error `e`, in `t`. -/
def FailsWith (e : Status) (s t : State) : Prop := step s = .next t ∧ t.status = some e ∧ e ≠ .success

/-- `t` is reached from `s` by steps that all succeed. -/
inductive SafeRun : State → State → Prop where
  | here (s : State) : SafeRun s s
  | step {s t u : State} (h : Succeeds s t) (r : SafeRun t u) : SafeRun s u

/-- `t` is reached from `s` by host-port calls, steps among them (R36: nothing else changes a core's state). -/
def HostReaches (s t : State) : Prop := ∃ cs : List HostCall, hostCalls cs s = t

/-- The boot duties 1 to 4 of R702: create the core, set the pc, seed the argument, the stack pointer and the sentinel. -/
def boot (p : Params) (m : Memory) (entry arg sp sentinel : Word) : State :=
  hostCalls [.setPc entry, .setRegister 4 arg, .setRegister 29 sp, .setRegister 31 sentinel] (createCore p m)

/-- How the driver's loop of R702 ends. -/
inductive DriverEnd where
  /-- `get_pc` answered the sentinel after a successful step (R704). -/
  | atSentinel (s : State)
  /-- A step returned an error. -/
  | failed (s : State)
  /-- The step budget ran out first. -/
  | stillRunning (s : State)
  deriving DecidableEq, Repr

/-- Duty 5 of R702 with the termination test of R704, for at most `fuel` steps. -/
def drive (sentinel : Word) : Nat → State → DriverEnd
  | 0, s => .stillRunning s
  | fuel + 1, s =>
    match hostCall .step s with
    | (.status .success, t) => if t.pc = sentinel then .atSentinel t else drive sentinel fuel t
    | (_, t) => .failed t

end Sys2Proof
end

