-- ==== Sys2Proof/Certificates/Slice0/Obligations.lean ====
section
/-! DEFINITION. The statements for the provers. Each says which rules of spec/ it rests on. `exec i s` is the execute
phase of a step whose fetch has already been recorded in `s.requests`, so what a meaning requests is what it appends. -/

namespace Sys2Proof.Claims

open Sys2Proof.Machine

/-- The memory has its size, and every byte of it reads as before. -/
def SameBytes (s t : State) : Prop := t.mem.size = s.mem.size ∧ ∀ a : Nat, t.mem.byteAt a = s.mem.byteAt a

/-- Every general register reads as before. -/
def SameRegisters (s t : State) : Prop := ∀ r : Reg, t.getReg r = s.getReg r

/-- Register `rd` reads `v`, register 0 reads 0 (so that a write to it is discarded), every other register reads as
before. -/
def RegistersAfter (s t : State) (rd : Reg) (v : Word) : Prop :=
  ∀ r : Reg, t.getReg r = if r = 0#5 then 0#32 else if r = rd then v else s.getReg r

/-- The step succeeds through the common tail (R147). -/
def CommonTail (s t : State) : Prop := t.status = some .success ∧ t.pc = s.nextPc ∧ t.nextPc = s.nextPc + 4#32

/-- `i` completes through the common tail: it writes `v` to `rd` and nothing else, and makes the requests `qs`. -/
def RegisterResult (i : Instr) (s : State) (rd : Reg) (v : Word) (qs : List Request) : Prop :=
  ∃ t, exec i s = .next t ∧ CommonTail s t ∧ RegistersAfter s t rd v ∧ t.hi = s.hi ∧ t.lo = s.lo ∧ SameBytes s t ∧
    t.params = s.params ∧ t.requests = s.requests ++ qs

/-- `i` completes through the common tail: HI and LO satisfy `post`, and nothing else is written. -/
def HiLoResult (i : Instr) (s : State) (post : Word → Word → Prop) : Prop :=
  ∃ t, exec i s = .next t ∧ CommonTail s t ∧ post t.hi t.lo ∧ SameRegisters s t ∧ SameBytes s t ∧
    t.params = s.params ∧ t.requests = s.requests

/-- `i` completes: control goes to the delay slot and then to `target`, and nothing else is written. -/
def ControlResult (i : Instr) (s : State) (target : Word) : Prop :=
  ∃ t, exec i s = .next t ∧ t.status = some .success ∧ t.pc = s.nextPc ∧ t.nextPc = target ∧ SameRegisters s t ∧
    t.hi = s.hi ∧ t.lo = s.lo ∧ SameBytes s t ∧ t.params = s.params ∧ t.requests = s.requests

/-- The same with `pc + 8` of the instruction itself written to `rd` (R418). -/
def LinkResult (i : Instr) (s : State) (target : Word) (rd : Reg) : Prop :=
  ∃ t, exec i s = .next t ∧ t.status = some .success ∧ t.pc = s.nextPc ∧ t.nextPc = target ∧
    RegistersAfter s t rd (s.pc + 8#32) ∧ t.hi = s.hi ∧ t.lo = s.lo ∧ SameBytes s t ∧ t.params = s.params ∧
    t.requests = s.requests

/-- `i` completes through the common tail: the byte at each address is what `byteAfter` says, and nothing else is
written. -/
def StoreResult (i : Instr) (s : State) (byteAfter : Nat → Byte) (qs : Memory → List Request) : Prop :=
  ∃ t, exec i s = .next t ∧ CommonTail s t ∧ SameRegisters s t ∧ t.hi = s.hi ∧ t.lo = s.lo ∧
    t.mem.size = s.mem.size ∧ (∀ a : Nat, t.mem.byteAt a = byteAfter a) ∧ t.params = s.params ∧
    t.requests = s.requests ++ qs t.mem

/-- `i` ends with the error `e`, the state as it was (R150), after the requests `qs`. -/
def ErrorResult (i : Instr) (s : State) (e : Status) (qs : List Request) : Prop :=
  exec i s = .next { s with status := some e, requests := s.requests ++ qs }

/-- The decoder refuses `w`, and a step that fetches it ends with InvalidInstruction after its one fetch request, before
any mutation (R112, R127, R142). -/
def RaisesInvalidInstruction (p : Params) (w : Word) : Prop :=
  (∃ e, decode p w = .error e) ∧
    ∀ s : State, s.params = p → s.mem.accepts s.pc = true → decodeWord (s.mem.bytesAt s.pc.toNat) = w →
      step s = .next { s with status := some .invalidInstruction, requests := [.read s.pc 4] }

/-- The integers a word holds as two's complement. -/
abbrev FitsWord (z : Int) : Prop := -2147483648 ≤ z ∧ z ≤ 2147483647

/-- The containing aligned word of `ea` lies in the memory (R64 at `align4(ea)`). -/
abbrev WordInMemory (s : State) (ea : Word) : Prop := ea.toNat / 4 * 4 + 4 ≤ s.mem.size

/-- The instruction at `pc`, if the fetch succeeds and the word decodes. -/
abbrev FetchedInstr (s : State) (i : Instr) : Prop :=
  s.mem.accepts s.pc = true ∧ decodeBytes s.params (s.mem.bytesAt s.pc.toNat) = .ok i

/-- The next instruction is DIVU with divisor 0, under `DIVU_ZERO_COMMITS_HILO` = true (R150, R313). -/
def DivuZeroCommits (s : State) : Prop :=
  s.params.divuZeroCommitsHilo = true ∧ ∃ rs rt, FetchedInstr s (.divu rs rt) ∧ s.getReg rt = 0#32

/-- The two's-complement sum or difference that ADD, ADDI and SUB must fit into a word (R200, R201); `none` for every
other instruction. -/
def exactSum (s : State) : Instr → Option Int
  | .add _ rs rt => some ((s.getReg rs).toInt + (s.getReg rt).toInt)
  | .addi _ rs imm => some ((s.getReg rs).toInt + imm.toInt)
  | .sub _ rs rt => some ((s.getReg rs).toInt - (s.getReg rt).toInt)
  | _ => none

/-- The effective address of LH, LHU and SH (R602); `none` for every other instruction. -/
def halfwordAddress (s : State) : Instr → Option Word
  | .lh _ offset base => some (s.ea base offset)
  | .lhu _ offset base => some (s.ea base offset)
  | .sh _ offset base => some (s.ea base offset)
  | _ => none

/-- What every state of a run has: the cell of register 0 holds 0 (R21), the memory is in canonical form, and every
request of the last step asked for 4 bytes (R61). -/
def MachineInv (s : State) : Prop :=
  s.regs[0] = 0#32 ∧ s.mem.wf = true ∧ ∀ q ∈ s.requests, q.len = 4

/-- What no host call breaks: the cell of register 0 holds 0 (R21) and the memory is in canonical form. -/
def HostInv (s : State) : Prop := s.regs[0] = 0#32 ∧ s.mem.wf = true

end Sys2Proof.Claims

open Sys2Proof Sys2Proof.Machine Sys2Proof.Claims

/-! ## Encoding -/

/-- R102 to R106, R126: every field value of every instruction a machine has comes back from its encoding. -/
def Obligations.DecodeOfEncodeIsTheInstruction : Prop :=
  ∀ (p : Params) (i : Instr), i.wf p = true → decode p (encode i) = .ok i

/-- R113: with every reserved field checked, no bit of an accepted word is lost. -/
def Obligations.StrictDecodeLosesNoBit : Prop :=
  ∀ (p : Params) (w : Word) (i : Instr), p.strictReservedFields = true → decode p w = .ok i → encode i = w

/-- R126: "every 32-bit word either decodes to exactly one row" or is rejected, and then no row matches it. -/
def Obligations.DecodeMatchesExactlyOneTableRow : Prop :=
  ∀ (p : Params) (w : Word),
    (∀ i, decode p w = .ok i → ∃ r ∈ opcodeTable, r.mnemonic = i.mnemonic ∧ r.accepts p w = true ∧
      ∀ q ∈ opcodeTable, q.accepts p w = true → q = r) ∧
    (∀ e, decode p w = .error e → RaisesInvalidInstruction p w ∧ ∀ r ∈ opcodeTable, r.accepts p w = false)

/-- The example words of R210, R219, R230, R310, R404, R411, R414, R416, R508, R511, R513: each decodes to the
instruction it stands for, whatever the parameters. -/
def Obligations.SpecExampleWordsDecode : Prop :=
  ∀ p : Params,
    decode p 0x00221820#32 = .ok (.add 3 1 2) ∧ decode p 0x00021900#32 = .ok (.sll 3 2 4) ∧
    decode p 0x2023FFFF#32 = .ok (.addi 3 1 0xFFFF#16) ∧ decode p 0x00220018#32 = .ok (.mult 1 2) ∧
    decode p 0x10220003#32 = .ok (.beq 1 2 3) ∧ decode p 0x04310003#32 = .ok (.bgezal 1 3) ∧
    decode p 0x0C000040#32 = .ok (.jal 0x40) ∧ decode p 0x00201809#32 = .ok (.jalr 3 1) ∧
    decode p 0x84220002#32 = .ok (.lh 2 2 1) ∧ decode p 0x88220001#32 = .ok (.lwl 2 1 1) ∧
    decode p 0xA0220001#32 = .ok (.sb 2 1 1)

/-- R112: a nonzero `shamt` on a SPECIAL word whose funct is not that of SLL, SRL or SRA. -/
def Obligations.NonzeroShamtIsRejected : Prop :=
  ∀ (p : Params) (w : Word), opcodeOf w = 0#6 → functOf w ≠ 0#6 → functOf w ≠ 2#6 → functOf w ≠ 3#6 → shamtOf w ≠ 0#5 →
    RaisesInvalidInstruction p w

/-- R120, R121, R122: an opcode, funct or selector outside the executed lists of R107, R108 and R111. -/
def Obligations.UnexecutedEncodingsAreRejected : Prop :=
  ∀ (p : Params) (w : Word),
    ((opcodeOf w).toNat ∉ [0, 1, 2, 3, 4, 5, 6, 7, 8, 9, 10, 11, 12, 13, 14, 15, 32, 33, 34, 35, 36, 37, 38, 40, 41, 43] →
      RaisesInvalidInstruction p w) ∧
    (opcodeOf w = 0#6 →
      (functOf w).toNat ∉ [0, 2, 3, 4, 6, 7, 8, 9, 16, 17, 18, 19, 24, 25, 26, 27, 32, 33, 34, 35, 36, 37, 38, 42, 43] →
      RaisesInvalidInstruction p w) ∧
    (opcodeOf w = 1#6 → (rtOf w).toNat ∉ [0, 1, 16, 17] → RaisesInvalidInstruction p w)

/-- R114: "When `EXT_VAR_SHIFTS = false`, funct 4, 6 and 7 raise InvalidInstruction", and the same of funct 16 to 19. -/
def Obligations.TierDRowsNeedTheirParameter : Prop :=
  ∀ (p : Params) (w : Word), opcodeOf w = 0#6 →
    (p.extVarShifts = false → (functOf w).toNat ∈ [4, 6, 7] → RaisesInvalidInstruction p w) ∧
    (p.extHiloMoves = false → (functOf w).toNat ∈ [16, 17, 18, 19] → RaisesInvalidInstruction p w)

/-- R113: the reserved fields it lists, checked in strict mode and ignored otherwise. -/
def Obligations.ReservedFieldsFollowTheStrictParameter : Prop :=
  ∀ (p : Params) (rs rt rd : Reg) (sa : BitVec 5) (imm : Half),
    (p.strictReservedFields = true →
      (rs ≠ 0#5 → ∀ f ∈ [0#6, 2#6, 3#6], RaisesInvalidInstruction p (rWord rs rt rd sa f)) ∧
      (rs ≠ 0#5 → RaisesInvalidInstruction p (iWord 0x0F#6 rs rt imm)) ∧
      ((rt ≠ 0#5 ∨ rd ≠ 0#5) → ∀ f ∈ [8#6, 17#6, 19#6], RaisesInvalidInstruction p (rWord rs rt rd 0#5 f)) ∧
      (rt ≠ 0#5 → RaisesInvalidInstruction p (rWord rs rt rd 0#5 9#6)) ∧
      ((rs ≠ 0#5 ∨ rt ≠ 0#5) → ∀ f ∈ [16#6, 18#6], RaisesInvalidInstruction p (rWord rs rt rd 0#5 f)) ∧
      (rd ≠ 0#5 → ∀ f ∈ [24#6, 25#6, 26#6, 27#6], RaisesInvalidInstruction p (rWord rs rt rd 0#5 f)) ∧
      (rt ≠ 0#5 → ∀ o ∈ [6#6, 7#6], RaisesInvalidInstruction p (iWord o rs rt imm))) ∧
    (p.strictReservedFields = false →
      (∀ f ∈ [0#6, 2#6, 3#6], decode p (rWord rs rt rd sa f) = decode p (rWord 0#5 rt rd sa f)) ∧
      decode p (iWord 0x0F#6 rs rt imm) = decode p (iWord 0x0F#6 0#5 rt imm) ∧
      (∀ f ∈ [8#6, 17#6, 19#6], decode p (rWord rs rt rd 0#5 f) = decode p (rWord rs 0#5 0#5 0#5 f)) ∧
      decode p (rWord rs rt rd 0#5 9#6) = decode p (rWord rs 0#5 rd 0#5 9#6) ∧
      (∀ f ∈ [16#6, 18#6], decode p (rWord rs rt rd 0#5 f) = decode p (rWord 0#5 0#5 rd 0#5 f)) ∧
      (∀ f ∈ [24#6, 25#6, 26#6, 27#6], decode p (rWord rs rt rd 0#5 f) = decode p (rWord rs rt 0#5 0#5 f)) ∧
      (∀ o ∈ [6#6, 7#6], decode p (iWord o rs rt imm) = decode p (iWord o rs 0#5 imm)))

/-- R67, R69: `decode_word` and `encode_word` are inverse, and the byte at offset `k` of a word is its big-endian lane. -/
def Obligations.WordCodecIsBigEndian : Prop :=
  (∀ v : Word, decodeWord (encodeWord v) = v) ∧ (∀ b : WordBytes, encodeWord (decodeWord b) = b) ∧
    ∀ b : WordBytes, byteLane (decodeWord b) 0#2 = b.b0 ∧ byteLane (decodeWord b) 1#2 = b.b1 ∧
      byteLane (decodeWord b) 2#2 = b.b2 ∧ byteLane (decodeWord b) 3#2 = b.b3 ∧
      halfLane (decodeWord b) 0#2 = b.b0 ++ b.b1 ∧ halfLane (decodeWord b) 2#2 = b.b2 ++ b.b3

/-! ## The step -/

/-- R141 to R143, R155: when the word at `pc` is read and decodes to `i`, the step is `exec i` at the state with the one
fetch request recorded. -/
def Obligations.StepRunsTheDecodedInstruction : Prop :=
  ∀ (s : State) (i : Instr), FetchedInstr s i → step s = exec i { s with requests := [.read s.pc 4] }

/-- R600: every step answers exactly one status, in a next state; no step ends in a fault or a refusal. -/
def Obligations.EveryStepAnswersAStatus : Prop :=
  ∀ s : State, ∃ t st, step s = .next t ∧ t.status = some st

/-- R141, R142: a step whose fetch is refused, or whose word does not decode, ends with that error after the one fetch
request and changes nothing else. -/
def Obligations.FetchAndDecodeFailuresChangeNothing : Prop :=
  ∀ s : State,
    (s.mem.accepts s.pc = false →
      step s = .next { s with status := some (.memoryError .memErr), requests := [.read s.pc 4] }) ∧
    (s.mem.accepts s.pc = true → (∃ e, decodeBytes s.params (s.mem.bytesAt s.pc.toNat) = .error e) →
      step s = .next { s with status := some .invalidInstruction, requests := [.read s.pc 4] })

/-- R150: after an error the state is the one before the step, but for DIVU by zero under DIVU_ZERO_COMMITS_HILO; every
request but the last was one the memory accepted. -/
def Obligations.FailedStepLeavesTheStateUnchanged : Prop :=
  ∀ (s t : State) (e : Status), FailsWith e s t →
    t.pc = s.pc ∧ t.nextPc = s.nextPc ∧ SameRegisters s t ∧ SameBytes s t ∧ t.params = s.params ∧
    (∀ q ∈ t.requests.dropLast, s.mem.accepts q.addr = true) ∧
    (DivuZeroCommits s → e = .invalidInstruction ∧ t.hi = 0#32 ∧ t.lo = 0#32) ∧
    (¬ DivuZeroCommits s → t.hi = s.hi ∧ t.lo = s.lo)

/-- R152: a further step after an error raises the same error in the same state. -/
def Obligations.FailedStepRepeats : Prop :=
  ∀ (s t : State) (e : Status), FailsWith e s t → step t = .next t

/-- R601: exactly when a step ends with InvalidInstruction. -/
def Obligations.InvalidInstructionExactly : Prop :=
  ∀ s t : State, step s = .next t →
    (t.status = some .invalidInstruction ↔
      s.mem.accepts s.pc = true ∧
        ((∃ e, decodeBytes s.params (s.mem.bytesAt s.pc.toNat) = .error e) ∨
          ∃ rs rt, FetchedInstr s (.divu rs rt) ∧ s.getReg rt = 0#32))

/-- R508, R509, R514, R602, R608: an instruction ends with InvalidAlignment exactly when it is LH, LHU or SH and its
effective address has `ea mod 4` in {1, 3}; it then makes no request, in memory or out of it, and changes nothing. -/
def Obligations.InvalidAlignmentExactly : Prop :=
  (∀ (i : Instr) (s : State) (ea : Word), halfwordAddress s i = some ea → (ea.toNat % 4 = 1 ∨ ea.toNat % 4 = 3) →
    ErrorResult i s .invalidAlignment []) ∧
  (∀ (i : Instr) (s t : State), exec i s = .next t → t.status = some .invalidAlignment →
    ∃ ea, halfwordAddress s i = some ea ∧ (ea.toNat % 4 = 1 ∨ ea.toNat % 4 = 3))

/-- R200, R201, R603: an instruction ends with ArithmeticOverflow exactly when it is ADD, SUB or ADDI and the exact
result does not fit in 32 bits; the destination and all else is then untouched. -/
def Obligations.ArithmeticOverflowExactly : Prop :=
  (∀ (i : Instr) (s : State) (z : Int), exactSum s i = some z → ¬ FitsWord z →
    ErrorResult i s .arithmeticOverflow []) ∧
  (∀ (i : Instr) (s t : State), exec i s = .next t → t.status = some .arithmeticOverflow →
    ∃ z, exactSum s i = some z ∧ ¬ FitsWord z)

/-- R604, R62: exactly when a step ends with MemoryError: its last request is one the memory refuses. -/
def Obligations.MemoryErrorExactly : Prop :=
  ∀ s t : State, step s = .next t →
    (t.status = some (.memoryError .memErr) ↔ ∃ q, t.requests.getLast? = some q ∧ s.mem.accepts q.addr = false)

/-- R26, R147, R149: a step that succeeds goes to `nextPc`; one of the common-tail class moves `nextPc` on by 4. -/
def Obligations.SuccessFollowsTheSequencer : Prop :=
  ∀ (i : Instr) (s t : State), exec i s = .next t → t.status = some .success →
    t.pc = s.nextPc ∧ (ownControl i = false → t.nextPc = s.nextPc + 4#32)

/-- R144: the own-control-transfer class cannot raise an error in phase 3. -/
def Obligations.ControlTransfersAlwaysSucceed : Prop :=
  ∀ (i : Instr) (s : State), ownControl i = true → ∃ t, exec i s = .next t ∧ t.status = some .success

/-- R21, R61, R64: from every state that has it, a step keeps `MachineInv`. -/
def Obligations.StepKeepsTheInvariant : Prop :=
  ∀ s t : State, MachineInv s → step s = .next t → MachineInv t

/-- R21, R33: the reset state has `MachineInv`, and so has a core created on any memory in canonical form. -/
def Obligations.ResetHasTheInvariant : Prop :=
  MachineInv State.reset ∧ ∀ (p : Params) (m : Memory), m.wf = true → MachineInv (createCore p m)

/-- R61, R71, R72, R79: a step's first request is the fetch at `pc`; every later one is at a multiple of 4; each asks for
4 bytes. -/
def Obligations.RequestsAreFetchThenAlignedWords : Prop :=
  ∀ s t : State, step s = .next t →
    ∃ qs, t.requests = .read s.pc 4 :: qs ∧ ∀ q ∈ qs, q.addr.toNat % 4 = 0 ∧ q.len = 4

/-- R75: the requests of an instruction that succeeds, in order. -/
def Obligations.RequestsFollowTheTable : Prop :=
  ∀ (i : Instr) (s t : State), exec i s = .next t → t.status = some .success →
    (dataOperand i = none → t.requests = s.requests) ∧
    ∀ offset base, dataOperand i = some (offset, base) →
      (isStore i = false → t.requests = s.requests ++ [.read (align4 (s.ea base offset)) 4]) ∧
      ((∃ rt, i = .sw rt offset base) → ∃ v, t.requests = s.requests ++ [.write (align4 (s.ea base offset)) 4 v]) ∧
      ((∃ rt, i = .sb rt offset base ∨ i = .sh rt offset base) → ∃ v, t.requests =
        s.requests ++ [.read (align4 (s.ea base offset)) 4, .write (align4 (s.ea base offset)) 4 v])

/-! ## Frames over every instruction -/

/-- R23: an instruction changes no general register but the one its row names. -/
def Obligations.OnlyTheNamedRegisterChanges : Prop :=
  ∀ (i : Instr) (s t : State), exec i s = .next t → ∀ r : Reg, destReg i ≠ some r → t.getReg r = s.getReg r

/-- R28: no instruction but MULT, MULTU, DIV, DIVU, MTHI and MTLO changes HI or LO. -/
def Obligations.OnlyMulDivAndMovesChangeHiLo : Prop :=
  ∀ (i : Instr) (s t : State), exec i s = .next t → writesHiLo i = false → t.hi = s.hi ∧ t.lo = s.lo

/-- R70, R72, R75: no instruction but SB, SH and SW changes a byte of memory, and a store changes none outside the
containing aligned word of its effective address. None changes a parameter or the memory's size (R11, R64). -/
def Obligations.OnlyStoresChangeMemory : Prop :=
  ∀ (i : Instr) (s t : State), exec i s = .next t →
    t.params = s.params ∧ t.mem.size = s.mem.size ∧ (isStore i = false → SameBytes s t) ∧
    ∀ offset base, dataOperand i = some (offset, base) → ∀ a : Nat,
      (a < (align4 (s.ea base offset)).toNat ∨ (align4 (s.ea base offset)).toNat + 4 ≤ a) →
      t.mem.byteAt a = s.mem.byteAt a

/-! ## ALU, shifts, immediates -/

/-- R202, R211, R213 to R216: ADDU, SUBU, AND, OR, XOR complete in every state. -/
def Obligations.WrappingAluResults : Prop :=
  ∀ (s : State) (rd rs rt : Reg),
    RegisterResult (.addu rd rs rt) s rd (s.getReg rs + s.getReg rt) [] ∧
    RegisterResult (.subu rd rs rt) s rd (s.getReg rs - s.getReg rt) [] ∧
    RegisterResult (.and rd rs rt) s rd (s.getReg rs &&& s.getReg rt) [] ∧
    RegisterResult (.or rd rs rt) s rd (s.getReg rs ||| s.getReg rt) [] ∧
    RegisterResult (.xor rd rs rt) s rd (s.getReg rs ^^^ s.getReg rt) []

/-- R200, R201, R210, R212, R230: ADD, SUB and ADDI complete with the exact result when it fits in a word. -/
def Obligations.TrappingAluResultsInRange : Prop :=
  ∀ (s : State) (rd rs rt : Reg) (imm : Half),
    (FitsWord ((s.getReg rs).toInt + (s.getReg rt).toInt) →
      RegisterResult (.add rd rs rt) s rd (BitVec.ofInt 32 ((s.getReg rs).toInt + (s.getReg rt).toInt)) []) ∧
    (FitsWord ((s.getReg rs).toInt - (s.getReg rt).toInt) →
      RegisterResult (.sub rd rs rt) s rd (BitVec.ofInt 32 ((s.getReg rs).toInt - (s.getReg rt).toInt)) []) ∧
    (FitsWord ((s.getReg rs).toInt + imm.toInt) →
      RegisterResult (.addi rt rs imm) s rt (BitVec.ofInt 32 ((s.getReg rs).toInt + imm.toInt)) [])

/-- R203, R217, R218, R232, R233: SLT and SLTI compare as two's complement, SLTU and SLTIU unsigned; the immediate is
sign-extended in both forms. -/
def Obligations.ComparisonResults : Prop :=
  ∀ (s : State) (rd rs rt : Reg) (imm : Half),
    RegisterResult (.slt rd rs rt) s rd (if (s.getReg rs).toInt < (s.getReg rt).toInt then 1#32 else 0#32) [] ∧
    RegisterResult (.sltu rd rs rt) s rd (if (s.getReg rs).toNat < (s.getReg rt).toNat then 1#32 else 0#32) [] ∧
    RegisterResult (.slti rt rs imm) s rt (if (s.getReg rs).toInt < imm.toInt then 1#32 else 0#32) [] ∧
    RegisterResult (.sltiu rt rs imm) s rt (if (s.getReg rs).toNat < (imm.signExtend 32).toNat then 1#32 else 0#32) []

/-- R204, R219 to R221: the constant shifts as arithmetic: times, floor-divided unsigned and floor-divided signed by
`2^sa`. -/
def Obligations.ConstantShiftResults : Prop :=
  ∀ (s : State) (rd rt : Reg) (sa : BitVec 5),
    RegisterResult (.sll rd rt sa) s rd (BitVec.ofNat 32 ((s.getReg rt).toNat * 2 ^ sa.toNat)) [] ∧
    RegisterResult (.srl rd rt sa) s rd (BitVec.ofNat 32 ((s.getReg rt).toNat / 2 ^ sa.toNat)) [] ∧
    RegisterResult (.sra rd rt sa) s rd (BitVec.ofInt 32 ((s.getReg rt).toInt / 2 ^ sa.toNat)) []

/-- R204, R222 to R224: the execute phase of the variable shifts, by the low 5 bits of `x[rs]`. That it does not look at
EXT_VAR_SHIFTS is the model's choice (log 23): the gate of R114 is the decoder's (`TierDRowsNeedTheirParameter`). -/
def Obligations.VariableShiftResults : Prop :=
  ∀ (s : State) (rd rt rs : Reg),
    RegisterResult (.sllv rd rt rs) s rd
      (BitVec.ofNat 32 ((s.getReg rt).toNat * 2 ^ ((s.getReg rs).toNat % 32))) [] ∧
    RegisterResult (.srlv rd rt rs) s rd
      (BitVec.ofNat 32 ((s.getReg rt).toNat / 2 ^ ((s.getReg rs).toNat % 32))) [] ∧
    RegisterResult (.srav rd rt rs) s rd
      (BitVec.ofInt 32 ((s.getReg rt).toInt / 2 ^ ((s.getReg rs).toNat % 32))) []

/-- R106, R231, R234 to R237: ADDIU sign-extends, ANDI, ORI and XORI zero-extend, LUI takes the upper half. -/
def Obligations.ImmediateResults : Prop :=
  ∀ (s : State) (rt rs : Reg) (imm : Half),
    RegisterResult (.addiu rt rs imm) s rt (BitVec.ofInt 32 ((s.getReg rs).toInt + imm.toInt)) [] ∧
    RegisterResult (.andi rt rs imm) s rt (s.getReg rs &&& BitVec.ofNat 32 imm.toNat) [] ∧
    RegisterResult (.ori rt rs imm) s rt (s.getReg rs ||| BitVec.ofNat 32 imm.toNat) [] ∧
    RegisterResult (.xori rt rs imm) s rt (s.getReg rs ^^^ BitVec.ofNat 32 imm.toNat) [] ∧
    RegisterResult (.lui rt imm) s rt (BitVec.ofNat 32 (imm.toNat * 65536)) []

/-! ## Multiply, divide, HI/LO -/

/-- R300, R301, R310, R311: HI and LO together hold the exact product. -/
def Obligations.MultiplyResults : Prop :=
  ∀ (s : State) (rs rt : Reg),
    HiLoResult (.mult rs rt) s (fun h l => (h ++ l).toInt = (s.getReg rs).toInt * (s.getReg rt).toInt) ∧
    HiLoResult (.multu rs rt) s (fun h l => (h ++ l).toNat = (s.getReg rs).toNat * (s.getReg rt).toNat)

/-- R302, R312: DIV truncates toward zero, gives 0 and 0 for a zero divisor and the two parameters for
0x80000000 / -1, whose defaults are 0 and 0x80000000; it always succeeds. -/
def Obligations.SignedDivideResults : Prop :=
  defaultParams.divOvfHi = 0#32 ∧ defaultParams.divOvfLo = 0x80000000#32 ∧ ∀ (s : State) (rs rt : Reg),
    HiLoResult (.div rs rt) s (fun h l =>
      if s.getReg rt = 0#32 then h = 0#32 ∧ l = 0#32
      else if s.getReg rs = 0x80000000#32 ∧ s.getReg rt = 0xFFFFFFFF#32 then
        h = s.params.divOvfHi ∧ l = s.params.divOvfLo
      else l.toInt = (s.getReg rs).toInt.tdiv (s.getReg rt).toInt ∧
        h.toInt = (s.getReg rs).toInt.tmod (s.getReg rt).toInt)

/-- R303, R313: DIVU by a divisor that is not 0. -/
def Obligations.UnsignedDivideResults : Prop :=
  ∀ (s : State) (rs rt : Reg), s.getReg rt ≠ 0#32 →
    HiLoResult (.divu rs rt) s (fun h l =>
      l.toNat = (s.getReg rs).toNat / (s.getReg rt).toNat ∧ h.toNat = (s.getReg rs).toNat % (s.getReg rt).toNat)

/-- R303, R313: DIVU by zero raises InvalidInstruction, HI and LO 0 if the parameter says so; `pc`, `nextPc`, the
registers and memory are unchanged. -/
def Obligations.UnsignedDivideByZeroTraps : Prop :=
  ∀ (s : State) (rs rt : Reg), s.getReg rt = 0#32 →
    (s.params.divuZeroCommitsHilo = true →
      exec (.divu rs rt) s = .next { s with hi := 0#32, lo := 0#32, status := some .invalidInstruction }) ∧
    (s.params.divuZeroCommitsHilo = false →
      exec (.divu rs rt) s = .next { s with status := some .invalidInstruction })

/-- R314 to R317: the execute phase of the HI/LO moves; MTHI leaves LO and MTLO leaves HI. That it does not look at
EXT_HILO_MOVES is the model's choice (log 23): the gate of R114 is the decoder's (`TierDRowsNeedTheirParameter`). -/
def Obligations.HiLoMoveResults : Prop :=
  ∀ (s : State) (rd rs : Reg),
    RegisterResult (.mfhi rd) s rd s.hi [] ∧ RegisterResult (.mflo rd) s rd s.lo [] ∧
    HiLoResult (.mthi rs) s (fun h l => h = s.getReg rs ∧ l = s.lo) ∧
    HiLoResult (.mtlo rs) s (fun h l => h = s.hi ∧ l = s.getReg rs)

/-! ## Branches and jumps -/

/-- R400, R402 to R405: BEQ and BNE. The displacement is four times the signed offset, from the delay slot's address. -/
def Obligations.EqualityBranchResults : Prop :=
  ∀ (s : State) (rs rt : Reg) (offset : Half),
    ControlResult (.beq rs rt offset) s
      (s.nextPc + if s.getReg rs = s.getReg rt then BitVec.ofInt 32 (offset.toInt * 4) else 4#32) ∧
    ControlResult (.bne rs rt offset) s
      (s.nextPc + if s.getReg rs = s.getReg rt then 4#32 else BitVec.ofInt 32 (offset.toInt * 4))

/-- R402, R406 to R409: the branches on the sign of one register. -/
def Obligations.SignBranchResults : Prop :=
  ∀ (s : State) (rs : Reg) (offset : Half),
    ControlResult (.blez rs offset) s
      (s.nextPc + if (s.getReg rs).toInt ≤ 0 then BitVec.ofInt 32 (offset.toInt * 4) else 4#32) ∧
    ControlResult (.bgtz rs offset) s
      (s.nextPc + if (s.getReg rs).toInt ≤ 0 then 4#32 else BitVec.ofInt 32 (offset.toInt * 4)) ∧
    ControlResult (.bltz rs offset) s
      (s.nextPc + if (s.getReg rs).msb = true then BitVec.ofInt 32 (offset.toInt * 4) else 4#32) ∧
    ControlResult (.bgez rs offset) s
      (s.nextPc + if (s.getReg rs).msb = true then 4#32 else BitVec.ofInt 32 (offset.toInt * 4))

/-- R401, R410, R411: BLTZAL and BGEZAL link register 31 taken or not, and test the register as it was before. -/
def Obligations.LinkingBranchResults : Prop :=
  ∀ (s : State) (rs : Reg) (offset : Half),
    LinkResult (.bltzal rs offset) s
      (s.nextPc + if (s.getReg rs).msb = true then BitVec.ofInt 32 (offset.toInt * 4) else 4#32) 31#5 ∧
    LinkResult (.bgezal rs offset) s
      (s.nextPc + if (s.getReg rs).msb = true then 4#32 else BitVec.ofInt 32 (offset.toInt * 4)) 31#5

/-- R412 to R414: J and JAL take the top four bits of the target from `nextPc`. -/
def Obligations.JumpResults : Prop :=
  ∀ (s : State) (target : BitVec 26),
    ControlResult (.j target) s (BitVec.ofNat 32 (s.nextPc.toNat / 268435456 * 268435456 + target.toNat * 4)) ∧
    LinkResult (.jal target) s (BitVec.ofNat 32 (s.nextPc.toNat / 268435456 * 268435456 + target.toNat * 4)) 31#5

/-- R415, R416, R419: JR and JALR go to the register's value at the start of the step, aligned or not; JALR with `rd`
equal to `rs` still jumps to the old value, and with `rd` 0 writes no link. -/
def Obligations.RegisterJumpResults : Prop :=
  ∀ (s : State) (rd rs : Reg),
    ControlResult (.jr rs) s (s.getReg rs) ∧ LinkResult (.jalr rd rs) s (s.getReg rs) rd

/-- R153: a jump executed in the delay slot of a jump takes its top four bits from the first jump's target. -/
def Obligations.JumpInADelaySlot : Prop :=
  ∀ (s t u : State) (first second : BitVec 26), exec (.j first) s = .next t → exec (.j second) t = .next u →
    t.pc = s.nextPc ∧ t.nextPc = jtarget s.nextPc first ∧
    u.pc = jtarget s.nextPc first ∧ u.nextPc = jtarget (jtarget s.nextPc first) second

/-- R704: a return through register 31 reaches the address it holds after the delay-slot instruction. -/
def Obligations.ReturnArrivesAfterTheDelaySlot : Prop :=
  ∀ (s t u : State) (i : Instr), FetchedInstr s (.jr 31#5) → Succeeds s t → FetchedInstr t i → ownControl i = false →
    Succeeds t u → t.pc = s.nextPc ∧ u.pc = s.getReg 31#5 ∧ u.nextPc = s.getReg 31#5 + 4#32

/-! ## Loads and stores -/

/-- R69, R506, R507: LB and LBU load the byte at the effective address itself. -/
def Obligations.LoadByteResults : Prop :=
  ∀ (s : State) (rt base : Reg) (offset : Half), WordInMemory s (s.ea base offset) →
    RegisterResult (.lb rt offset base) s rt
      (if s.params.lbSignExtend = true then (s.mem.byteAt (s.ea base offset).toNat).signExtend 32
        else BitVec.ofNat 32 (s.mem.byteAt (s.ea base offset).toNat).toNat)
      [.read (align4 (s.ea base offset)) 4] ∧
    RegisterResult (.lbu rt offset base) s rt (BitVec.ofNat 32 (s.mem.byteAt (s.ea base offset).toNat).toNat)
      [.read (align4 (s.ea base offset)) 4]

/-- R69, R508, R509: LH and LHU at an even address load the two bytes from it on, the first the more significant. -/
def Obligations.LoadHalfResults : Prop :=
  ∀ (s : State) (rt base : Reg) (offset : Half), WordInMemory s (s.ea base offset) →
    (s.ea base offset).toNat % 2 = 0 →
    RegisterResult (.lh rt offset base) s rt
      ((s.mem.byteAt (s.ea base offset).toNat ++ s.mem.byteAt ((s.ea base offset).toNat + 1)).signExtend 32)
      [.read (align4 (s.ea base offset)) 4] ∧
    RegisterResult (.lhu rt offset base) s rt
      (BitVec.ofNat 32 ((s.mem.byteAt (s.ea base offset).toNat).toNat * 256 +
        (s.mem.byteAt ((s.ea base offset).toNat + 1)).toNat))
      [.read (align4 (s.ea base offset)) 4]

/-- R500, R510: LW loads the containing aligned word, whatever the low bits of the address, and stores nothing. -/
def Obligations.LoadWordResult : Prop :=
  ∀ (s : State) (rt base : Reg) (offset : Half), WordInMemory s (s.ea base offset) →
    RegisterResult (.lw rt offset base) s rt
      (let a := (s.ea base offset).toNat / 4 * 4;
        s.mem.byteAt a ++ s.mem.byteAt (a + 1) ++ s.mem.byteAt (a + 2) ++ s.mem.byteAt (a + 3))
      [.read (align4 (s.ea base offset)) 4]

/-- R511: LWL puts the bytes from the effective address to the end of its word into the most significant end of `rt` and
keeps the rest. -/
def Obligations.LoadWordLeftResult : Prop :=
  ∀ (s : State) (rt base : Reg) (offset : Half), WordInMemory s (s.ea base offset) →
    let ea := (s.ea base offset).toNat
    let b := fun k : Nat => s.mem.byteAt (ea + k)
    let old := encodeWord (s.getReg rt)
    RegisterResult (.lwl rt offset base) s rt
      (match (s.ea base offset).extractLsb' 0 2 with
        | 0#2 => b 0 ++ b 1 ++ b 2 ++ b 3
        | 1#2 => b 0 ++ b 1 ++ b 2 ++ old.b3
        | 2#2 => b 0 ++ b 1 ++ old.b2 ++ old.b3
        | 3#2 => b 0 ++ old.b1 ++ old.b2 ++ old.b3)
      [.read (align4 (s.ea base offset)) 4]

/-- R512: LWR puts the bytes from the start of the word up to the effective address into the least significant end of
`rt` and keeps the rest. -/
def Obligations.LoadWordRightResult : Prop :=
  ∀ (s : State) (rt base : Reg) (offset : Half), WordInMemory s (s.ea base offset) →
    let a := (s.ea base offset).toNat / 4 * 4
    let b := fun k : Nat => s.mem.byteAt (a + k)
    let old := encodeWord (s.getReg rt)
    RegisterResult (.lwr rt offset base) s rt
      (match (s.ea base offset).extractLsb' 0 2 with
        | 0#2 => old.b0 ++ old.b1 ++ old.b2 ++ b 0
        | 1#2 => old.b0 ++ old.b1 ++ b 0 ++ b 1
        | 2#2 => old.b0 ++ b 0 ++ b 1 ++ b 2
        | 3#2 => b 0 ++ b 1 ++ b 2 ++ b 3)
      [.read (align4 (s.ea base offset)) 4]

/-- R513: SB changes the byte at the effective address to the low byte of `x[rt]`, and no other byte. It reads the
containing word and writes back the word that memory then holds. -/
def Obligations.StoreByteResult : Prop :=
  ∀ (s : State) (rt base : Reg) (offset : Half), WordInMemory s (s.ea base offset) →
    StoreResult (.sb rt offset base) s
      (fun a => if a = (s.ea base offset).toNat then (encodeWord (s.getReg rt)).b3 else s.mem.byteAt a)
      (fun m => [.read (align4 (s.ea base offset)) 4,
        .write (align4 (s.ea base offset)) 4 (decodeWord (m.bytesAt (align4 (s.ea base offset)).toNat))])

/-- R514: SH at an even address changes the two bytes from it on to the low half of `x[rt]`, the more significant first,
and no other byte. -/
def Obligations.StoreHalfResult : Prop :=
  ∀ (s : State) (rt base : Reg) (offset : Half), WordInMemory s (s.ea base offset) →
    (s.ea base offset).toNat % 2 = 0 →
    StoreResult (.sh rt offset base) s
      (fun a => if a = (s.ea base offset).toNat then (encodeWord (s.getReg rt)).b2
        else if a = (s.ea base offset).toNat + 1 then (encodeWord (s.getReg rt)).b3 else s.mem.byteAt a)
      (fun m => [.read (align4 (s.ea base offset)) 4,
        .write (align4 (s.ea base offset)) 4 (decodeWord (m.bytesAt (align4 (s.ea base offset)).toNat))])

/-- R515: SW writes the containing aligned word, whatever the low bits of the address, with one write request and no
read. -/
def Obligations.StoreWordResult : Prop :=
  ∀ (s : State) (rt base : Reg) (offset : Half), WordInMemory s (s.ea base offset) →
    StoreResult (.sw rt offset base) s
      (fun a => if a = (align4 (s.ea base offset)).toNat then (encodeWord (s.getReg rt)).b0
        else if a = (align4 (s.ea base offset)).toNat + 1 then (encodeWord (s.getReg rt)).b1
        else if a = (align4 (s.ea base offset)).toNat + 2 then (encodeWord (s.getReg rt)).b2
        else if a = (align4 (s.ea base offset)).toNat + 3 then (encodeWord (s.getReg rt)).b3 else s.mem.byteAt a)
      (fun _ => [.write (align4 (s.ea base offset)) 4 (s.getReg rt)])

/-- R505, R604: a load or store whose word is not in the memory ends with MemoryError after its first request; SB and SH
then issue no write. -/
def Obligations.AddressOutsideMemoryTraps : Prop :=
  ∀ (s : State) (rt base : Reg) (offset : Half), ¬ WordInMemory s (s.ea base offset) →
    (∀ i ∈ [Instr.lb rt offset base, .lbu rt offset base, .lw rt offset base, .lwl rt offset base, .lwr rt offset base,
        .sb rt offset base],
      ErrorResult i s (.memoryError .memErr) [.read (align4 (s.ea base offset)) 4]) ∧
    ((s.ea base offset).toNat % 2 = 0 → ∀ i ∈ [Instr.lh rt offset base, .lhu rt offset base, .sh rt offset base],
      ErrorResult i s (.memoryError .memErr) [.read (align4 (s.ea base offset)) 4]) ∧
    ErrorResult (.sw rt offset base) s (.memoryError .memErr) [.write (align4 (s.ea base offset)) 4 (s.getReg rt)]

/-- R80, R708: a store of an instruction's word to the address of the next instruction is what the next step runs. -/
def Obligations.StoredInstructionRunsNext : Prop :=
  ∀ (s t : State) (rt base : Reg) (offset : Half) (i : Instr), FetchedInstr s (.sw rt offset base) → Succeeds s t →
    align4 (s.ea base offset) = s.nextPc → decode s.params (s.getReg rt) = .ok i →
    step t = exec i { t with requests := [.read s.nextPc 4] }

/-! ## The host port -/

/-- R21, R35, R605: a register set through the port is what the port then reads, register 0 always reads 0, and an index
outside 0..31 answers InvalidArgument and changes nothing. -/
def Obligations.HostRegisterAccess : Prop :=
  ∀ (s : State) (i j : Int) (v : Word),
    (0 ≤ i ∧ i < 32 → 0 ≤ j ∧ j < 32 →
      (hostCall (.getRegister j) (hostCall (.setRegister i v) s).2).1 =
        if j = 0 then .value 0#32 else if j = i then .value v else (hostCall (.getRegister j) s).1) ∧
    (¬ (0 ≤ i ∧ i < 32) → hostCall (.setRegister i v) s = (.invalidArgument, s) ∧
      hostCall (.getRegister i) s = (.invalidArgument, s)) ∧
    (hostCall (.getRegister i) s).2 = s

/-- R31, R33, R35, R700: `set_pc`, `get_pc`, `set_debug_level` and `reset`; a reset leaves memory as it is. -/
def Obligations.HostPcResetAndDebugLevel : Prop :=
  ∀ (s : State) (v : Word) (level : Int) (sink : String),
    (s.params.setPcNext = .plus4 → (hostCall (.setPc v) s).2 = { s with pc := v, nextPc := v + 4#32 }) ∧
    (s.params.setPcNext = .keep → (hostCall (.setPc v) s).2 = { s with pc := v }) ∧
    hostCall .getPc s = (.value s.pc, s) ∧ (hostCall (.setDebugLevel level sink) s).2 = s ∧
    (let t := (hostCall .reset s).2;
      t.pc = 0#32 ∧ t.nextPc = 0#32 ∧ t.hi = 0#32 ∧ t.lo = 0#32 ∧ (∀ r, t.getReg r = 0#32) ∧ t.mem = s.mem ∧
        t.params = s.params ∧ t.requests = [])

/-- R21, R36: from every state that has it, every call of the host port, `step` among them, keeps `HostInv`, and
register 0 reads 0. A core created on a memory in canonical form has it, and so has all that a host makes of one. -/
def Obligations.HostNeverSeesRegisterZeroChange : Prop :=
  (∀ s : State, HostInv s → (hostCall (.getRegister 0) s).1 = .value 0#32 ∧ ∀ c : HostCall, HostInv (hostCall c s).2) ∧
    ∀ (p : Params) (m : Memory), m.wf = true → HostInv (createCore p m) ∧
      ∀ t : State, HostReaches (createCore p m) t → HostInv t ∧ (hostCall (.getRegister 0) t).1 = .value 0#32

/-- R33, R702: from the bare reset state a common-tail instruction at address 0 that succeeds leaves `pc` at 0 and
`nextPc` at 4, and, unless it is a store, is the instruction the next step fetches; after `set_pc(0)` with
SET_PC_NEXT = Plus4 it leaves `pc` at 4. -/
def Obligations.BareResetStaysAtWordZero : Prop :=
  ∀ (p : Params) (m : Memory) (i : Instr) (t : State), ownControl i = false →
    (FetchedInstr (createCore p m) i → Succeeds (createCore p m) t →
      t.pc = 0#32 ∧ t.nextPc = 4#32 ∧ (isStore i = false → FetchedInstr t i)) ∧
    (p.setPcNext = .plus4 → FetchedInstr (setPc (createCore p m) 0#32) i → Succeeds (setPc (createCore p m) 0#32) t →
      t.pc = 4#32 ∧ t.nextPc = 8#32)

/-- The host interface (log 7): an instruction placed where the step fetches is the instruction the step runs. -/
def Obligations.PlacedInstructionRunsNext : Prop :=
  ∀ (s : State) (i : Instr), s.mem.accepts s.pc = true → i.wf s.params = true →
    FetchedInstr (s.withFetchWord 32 (encode i).toNat) i ∧
    ∀ a : Nat, (a < s.pc.toNat ∨ s.pc.toNat + 4 ≤ a) →
      (s.withFetchWord 32 (encode i).toNat).mem.byteAt a = s.mem.byteAt a
end

