-- ==== Sys2Proof/Laws/Encoding.lean ====
section
/-! SUPPORT. The fields of an encoded word (spec/30_encoding.md R102 to R105), so that no later proof takes an encoding
apart again. -/

namespace Sys2Proof.Laws

open Sys2Proof

/-- A field is what its bits are. -/
theorem extractLsb'_eq_of_bits (w : Word) (lo : Nat) {n : Nat} (v : BitVec n)
    (h : ∀ i, i < n → w.getLsbD (lo + i) = v.getLsbD i) : w.extractLsb' lo n = v := by
  apply BitVec.eq_of_getLsbD_eq
  intro i hi
  rw [BitVec.getLsbD_extractLsb', h i hi]
  simp [hi]

theorem getLsbD_iWord (op : BitVec 6) (rs rt : Reg) (imm : Half) (i : Nat) :
    (iWord op rs rt imm).getLsbD i = if i < 16 then imm.getLsbD i else if i < 21 then rt.getLsbD (i - 16)
      else if i < 26 then rs.getLsbD (i - 21) else op.getLsbD (i - 26) := by
  change @BitVec.getLsbD (6 + 5 + 5 + 16) (op ++ rs ++ rt ++ imm) i = _
  rw [BitVec.getLsbD_append, BitVec.getLsbD_append, BitVec.getLsbD_append]
  simp only [Nat.sub_sub]
  split_ifs <;> first | rfl | omega

theorem getLsbD_rWord (rs rt rd : Reg) (sa : BitVec 5) (f : BitVec 6) (i : Nat) :
    (rWord rs rt rd sa f).getLsbD i = if i < 6 then f.getLsbD i else if i < 11 then sa.getLsbD (i - 6)
      else if i < 16 then rd.getLsbD (i - 11) else if i < 21 then rt.getLsbD (i - 16)
      else if i < 26 then rs.getLsbD (i - 21) else false := by
  change @BitVec.getLsbD (6 + 5 + 5 + 5 + 5 + 6) (0x00#6 ++ rs ++ rt ++ rd ++ sa ++ f) i = _
  rw [BitVec.getLsbD_append, BitVec.getLsbD_append, BitVec.getLsbD_append, BitVec.getLsbD_append,
    BitVec.getLsbD_append]
  simp only [Nat.sub_sub, BitVec.getLsbD_zero]
  split_ifs <;> first | rfl | omega

theorem getLsbD_jWord (op : BitVec 6) (t : BitVec 26) (i : Nat) :
    (jWord op t).getLsbD i = if i < 26 then t.getLsbD i else op.getLsbD (i - 26) := by
  change @BitVec.getLsbD (6 + 26) (op ++ t) i = _
  rw [BitVec.getLsbD_append]

@[simp] theorem opcodeOf_iWord (op : BitVec 6) (rs rt : Reg) (imm : Half) : opcodeOf (iWord op rs rt imm) = op := by
  refine extractLsb'_eq_of_bits _ _ _ fun i hi => ?_
  rw [getLsbD_iWord]
  split_ifs <;> first | omega | (congr 1; omega)

@[simp] theorem rsOf_iWord (op : BitVec 6) (rs rt : Reg) (imm : Half) : rsOf (iWord op rs rt imm) = rs := by
  refine extractLsb'_eq_of_bits _ _ _ fun i hi => ?_
  rw [getLsbD_iWord]
  split_ifs <;> first | omega | (congr 1; omega)

@[simp] theorem rtOf_iWord (op : BitVec 6) (rs rt : Reg) (imm : Half) : rtOf (iWord op rs rt imm) = rt := by
  refine extractLsb'_eq_of_bits _ _ _ fun i hi => ?_
  rw [getLsbD_iWord]
  split_ifs <;> first | omega | (congr 1; omega)

@[simp] theorem immOf_iWord (op : BitVec 6) (rs rt : Reg) (imm : Half) : immOf (iWord op rs rt imm) = imm := by
  refine extractLsb'_eq_of_bits _ _ _ fun i hi => ?_
  rw [getLsbD_iWord]
  split_ifs <;> first | omega | (congr 1; omega)

@[simp] theorem opcodeOf_rWord (rs rt rd : Reg) (sa : BitVec 5) (f : BitVec 6) : opcodeOf (rWord rs rt rd sa f) = 0x00#6 := by
  refine extractLsb'_eq_of_bits _ _ _ fun i hi => ?_
  rw [getLsbD_rWord]
  split_ifs <;> first | omega | simp

@[simp] theorem rsOf_rWord (rs rt rd : Reg) (sa : BitVec 5) (f : BitVec 6) : rsOf (rWord rs rt rd sa f) = rs := by
  refine extractLsb'_eq_of_bits _ _ _ fun i hi => ?_
  rw [getLsbD_rWord]
  split_ifs <;> first | omega | (congr 1; omega)

@[simp] theorem rtOf_rWord (rs rt rd : Reg) (sa : BitVec 5) (f : BitVec 6) : rtOf (rWord rs rt rd sa f) = rt := by
  refine extractLsb'_eq_of_bits _ _ _ fun i hi => ?_
  rw [getLsbD_rWord]
  split_ifs <;> first | omega | (congr 1; omega)

@[simp] theorem rdOf_rWord (rs rt rd : Reg) (sa : BitVec 5) (f : BitVec 6) : rdOf (rWord rs rt rd sa f) = rd := by
  refine extractLsb'_eq_of_bits _ _ _ fun i hi => ?_
  rw [getLsbD_rWord]
  split_ifs <;> first | omega | (congr 1; omega)

@[simp] theorem shamtOf_rWord (rs rt rd : Reg) (sa : BitVec 5) (f : BitVec 6) : shamtOf (rWord rs rt rd sa f) = sa := by
  refine extractLsb'_eq_of_bits _ _ _ fun i hi => ?_
  rw [getLsbD_rWord]
  split_ifs <;> first | omega | (congr 1; omega)

@[simp] theorem functOf_rWord (rs rt rd : Reg) (sa : BitVec 5) (f : BitVec 6) : functOf (rWord rs rt rd sa f) = f := by
  refine extractLsb'_eq_of_bits _ _ _ fun i hi => ?_
  rw [getLsbD_rWord]
  split_ifs <;> first | omega | (congr 1; omega)

@[simp] theorem opcodeOf_jWord (op : BitVec 6) (t : BitVec 26) : opcodeOf (jWord op t) = op := by
  refine extractLsb'_eq_of_bits _ _ _ fun i hi => ?_
  rw [getLsbD_jWord]
  split_ifs <;> first | omega | (congr 1; omega)

@[simp] theorem targetOf_jWord (op : BitVec 6) (t : BitVec 26) : targetOf (jWord op t) = t := by
  refine extractLsb'_eq_of_bits _ _ _ fun i hi => ?_
  rw [getLsbD_jWord]
  split_ifs <;> first | omega | (congr 1; omega)

end Sys2Proof.Laws
end

