-- ==== Sys2Proof/Laws/Memory.lean ====
section
/-! SUPPORT. The laws of the reference memory (spec/20_memory.md R64): a read after a write, every other byte
unchanged, and the canonical form kept by every operation. -/

namespace Sys2Proof.Machine

/-! ## Cells -/

theorem findCell_dropCell (u : Nat → Byte) (a b : Nat) (cs : List Host.Cell) :
    findCell u b (dropCell a cs) = if b = a then u b else findCell u b cs := by
  induction cs with
  | nil => simp [dropCell, findCell]
  | cons c cs ih =>
    by_cases hc : c.1 = a
    · simp only [dropCell, if_pos hc, ih, findCell]
      split_ifs <;> first | rfl | omega
    · simp only [dropCell, if_neg hc, findCell, ih]
      split_ifs <;> first | rfl | omega

theorem findCell_putCell (u : Nat → Byte) (a b : Nat) (v : Byte) (cs : List Host.Cell) (h : ∀ c ∈ cs, c.1 ≠ a) :
    findCell u b (putCell a v cs) = if b = a then v else findCell u b cs := by
  induction cs with
  | nil => simp [putCell, findCell, eq_comm]
  | cons c cs ih =>
    have hc : c.1 ≠ a := h c (by simp)
    have ih := ih fun d hd => h d (by simp [hd])
    simp only [putCell]
    split_ifs with h1 h2 h2
    · simp [findCell, h2]
    · simp [findCell, eq_comm (a := a), h2]
    · simp only [findCell, ih, if_pos h2]; split_ifs <;> first | rfl | omega
    · simp only [findCell, ih, if_neg h2]

theorem dropCell_ne (a : Nat) (cs : List Host.Cell) : ∀ c ∈ dropCell a cs, c.1 ≠ a := by
  induction cs with
  | nil => simp [dropCell]
  | cons c cs ih =>
    by_cases hc : c.1 = a
    · simpa only [dropCell, if_pos hc] using ih
    · simp only [dropCell, if_neg hc, List.mem_cons]
      rintro d (rfl | hd)
      · exact hc
      · exact ih d hd

theorem dropCell_subset (a : Nat) (cs : List Host.Cell) : ∀ c ∈ dropCell a cs, c ∈ cs := by
  induction cs with
  | nil => simp [dropCell]
  | cons c cs ih =>
    simp only [dropCell]
    split_ifs
    · exact fun d hd => List.mem_cons_of_mem _ (ih d hd)
    · simp only [List.mem_cons]
      rintro d (rfl | hd)
      · exact .inl rfl
      · exact .inr (ih d hd)

theorem mem_putCell (a : Nat) (v : Byte) (cs : List Host.Cell) (c : Host.Cell) :
    c ∈ putCell a v cs ↔ c = (a, v) ∨ c ∈ cs := by
  induction cs with
  | nil => simp [putCell]
  | cons d cs ih => simp only [putCell]; split_ifs <;> simp only [List.mem_cons, ih]; tauto

theorem dropCell_sorted (a : Nat) (cs : List Host.Cell) (h : cs.Pairwise (fun c d => c.1 < d.1)) :
    (dropCell a cs).Pairwise (fun c d => c.1 < d.1) := by
  induction cs with
  | nil => simp [dropCell]
  | cons c cs ih =>
    rw [List.pairwise_cons] at h
    simp only [dropCell]
    split_ifs
    · exact ih h.2
    · exact List.pairwise_cons.2 ⟨fun d hd => h.1 d (dropCell_subset a cs d hd), ih h.2⟩

theorem putCell_sorted (a : Nat) (v : Byte) (cs : List Host.Cell) (hs : cs.Pairwise (fun c d => c.1 < d.1))
    (hn : ∀ c ∈ cs, c.1 ≠ a) : (putCell a v cs).Pairwise (fun c d => c.1 < d.1) := by
  induction cs with
  | nil => simp [putCell]
  | cons c cs ih =>
    have h := List.pairwise_cons.1 hs
    simp only [putCell]
    split_ifs with hlt
    · refine List.pairwise_cons.2 ⟨fun d hd => ?_, hs⟩
      rcases List.mem_cons.1 hd with rfl | hd
      · exact hlt
      · exact lt_trans hlt (h.1 d hd)
    · refine List.pairwise_cons.2 ⟨fun d hd => ?_, ih h.2 fun d hd => hn d (by simp [hd])⟩
      rcases (mem_putCell a v cs d).1 hd with rfl | hd
      · exact lt_of_le_of_ne (not_lt.1 hlt) (hn c (by simp))
      · exact h.1 d hd

/-- What a cell store leaves: the byte at `a`, every other as before. -/
theorem findCell_storeCell (u : Nat → Byte) (f : Option Byte) (hu : ∀ v, f = some v → ∀ a, u a = v) (a c : Nat) (b : Byte)
    (cs : List Host.Cell) : findCell u c (storeCell f a b cs) = if c = a then b else findCell u c cs := by
  unfold storeCell
  by_cases hb : f = some b
  · rw [if_pos hb, findCell_dropCell, hu b hb]
  · rw [if_neg hb, findCell_putCell _ _ _ _ _ (dropCell_ne a cs), findCell_dropCell]
    split_ifs <;> rfl

theorem storeCell_sorted (f : Option Byte) (a : Nat) (b : Byte) (cs : List Host.Cell)
    (h : cs.Pairwise (fun c d => c.1 < d.1)) : (storeCell f a b cs).Pairwise (fun c d => c.1 < d.1) := by
  unfold storeCell
  by_cases hb : f = some b
  · rw [if_pos hb]; exact dropCell_sorted a cs h
  · rw [if_neg hb]; exact putCell_sorted a b _ (dropCell_sorted a cs h) (dropCell_ne a cs)

theorem mem_storeCell (f : Option Byte) (a : Nat) (b : Byte) (cs : List Host.Cell) (c : Host.Cell)
    (h : c ∈ storeCell f a b cs) : (c = (a, b) ∧ f ≠ some b) ∨ c ∈ cs := by
  unfold storeCell at h
  by_cases hb : f = some b
  · rw [if_pos hb] at h; exact .inr (dropCell_subset a cs c h)
  · rw [if_neg hb, mem_putCell] at h
    exact h.imp (fun hc => ⟨hc, hb⟩) (dropCell_subset a cs c)

/-! ## Bytes -/

@[simp] theorem Memory.setByte_size (m : Memory) (a : Nat) (b : Byte) : (m.setByte a b).size = m.size := rfl
@[simp] theorem Memory.setByte_fill (m : Memory) (a : Nat) (b : Byte) : (m.setByte a b).fill = m.fill := rfl
/-- Where the unlisted bytes are known, they are. -/
theorem Memory.unlisted_known {m : Memory} {v : Byte} (h : m.fill = some v) (a : Nat) : m.unlisted a = v := by
  simp [Memory.unlisted, h]

/-- Where they are not, they are the free value. -/
theorem Memory.unlisted_open {m : Memory} (h : m.fill = none) (a : Nat) : m.unlisted a = Config.memInit a := by
  simp [Memory.unlisted, h]

@[simp] theorem Memory.setByte_unlisted (m : Memory) (a : Nat) (b : Byte) : (m.setByte a b).unlisted = m.unlisted := rfl

/-- A byte read after a byte write. -/
theorem Memory.setByte_byteAt (m : Memory) (a : Nat) (b : Byte) (c : Nat) :
    (m.setByte a b).byteAt c = if c = a then b else m.byteAt c :=
  findCell_storeCell m.unlisted m.fill (fun _ h => Memory.unlisted_known h) a c b m.cells

/-- The canonical form, spelled out. -/
theorem Memory.wf_iff (m : Memory) : m.wf = true ↔ m.cells.Pairwise (fun c d => c.1 < d.1) ∧
    ∀ c ∈ m.cells, c.1 < m.size ∧ m.fill ≠ some c.2 := by
  simp [Memory.wf, ne_comm (a := m.fill)]

/-- A byte write below `size` keeps the canonical form. -/
theorem Memory.setByte_wf (m : Memory) (a : Nat) (b : Byte) (ha : a < m.size) (h : m.wf = true) :
    (m.setByte a b).wf = true := by
  rw [Memory.wf_iff] at h ⊢
  refine ⟨storeCell_sorted _ a b _ h.1, fun c hc => ?_⟩
  rcases mem_storeCell _ a b _ c hc with ⟨rfl, hb⟩ | hc
  · exact ⟨ha, hb⟩
  · exact h.2 c hc

/-! ## Words -/

@[simp] theorem Memory.setBytes_size (m : Memory) (a : Nat) (b : WordBytes) : (m.setBytes a b).size = m.size := rfl
@[simp] theorem Memory.setBytes_fill (m : Memory) (a : Nat) (b : WordBytes) : (m.setBytes a b).fill = m.fill := rfl

/-- A byte read after a word write: the four bytes in order, every other byte as before. -/
theorem Memory.setBytes_byteAt (m : Memory) (a : Nat) (b : WordBytes) (c : Nat) :
    (m.setBytes a b).byteAt c = if c = a then b.b0 else if c = a + 1 then b.b1 else if c = a + 2 then b.b2
      else if c = a + 3 then b.b3 else m.byteAt c := by
  simp only [Memory.setBytes, Memory.setByte_byteAt]
  split_ifs <;> first | rfl | omega

theorem Memory.setBytes_byteAt_outside (m : Memory) (a : Nat) (b : WordBytes) (c : Nat) (h : c < a ∨ a + 4 ≤ c) :
    (m.setBytes a b).byteAt c = m.byteAt c := by
  rw [Memory.setBytes_byteAt]
  split_ifs <;> first | rfl | omega

/-- A word read after a word write to the same place. -/
theorem Memory.setBytes_bytesAt (m : Memory) (a : Nat) (b : WordBytes) : (m.setBytes a b).bytesAt a = b := by
  simp [Memory.bytesAt, Memory.setBytes_byteAt]

theorem Memory.setBytes_wf (m : Memory) (a : Nat) (b : WordBytes) (ha : a + 4 ≤ m.size) (h : m.wf = true) :
    (m.setBytes a b).wf = true := by
  unfold Memory.setBytes
  refine Memory.setByte_wf _ _ _ ?_ (Memory.setByte_wf _ _ _ ?_ (Memory.setByte_wf _ _ _ ?_
    (Memory.setByte_wf _ _ _ ?_ h))) <;> (first | omega | (simp only [Memory.setByte_size]; omega))

/-! ## Requests -/

theorem Memory.accepts_iff (m : Memory) (a : Word) :
    m.accepts a = true ↔ a.toNat % 4 = 0 ∧ a.toNat + 4 ≤ m.size := by
  simp [Memory.accepts]

theorem Memory.accepts_congr {m n : Memory} (h : n.size = m.size) (a : Word) : n.accepts a = m.accepts a := by
  simp [Memory.accepts, h]

theorem Memory.read_of_accepts {m : Memory} {a : Word} (h : m.accepts a = true) :
    m.read a = .ok (m.bytesAt a.toNat) := if_pos h

theorem Memory.read_of_not_accepts {m : Memory} {a : Word} (h : m.accepts a = false) : m.read a = .error .memErr := by
  simp [Memory.read, h]

theorem Memory.write_of_accepts {m : Memory} {a : Word} (h : m.accepts a = true) (b : WordBytes) :
    m.write a b = .ok (m.setBytes a.toNat b) := if_pos h

theorem Memory.write_of_not_accepts {m : Memory} {a : Word} (h : m.accepts a = false) (b : WordBytes) :
    m.write a b = .error .memErr := by
  simp [Memory.write, h]

/-- All a write request can do. -/
theorem Memory.write_cases (m : Memory) (a : Word) (b : WordBytes) :
    (m.accepts a = true ∧ m.write a b = .ok (m.setBytes a.toNat b)) ∨
      (m.accepts a = false ∧ m.write a b = .error .memErr) := by
  cases h : m.accepts a
  · exact .inr ⟨rfl, Memory.write_of_not_accepts h b⟩
  · exact .inl ⟨rfl, Memory.write_of_accepts h b⟩

/-- A write request that succeeds keeps the canonical form and the size. -/
theorem Memory.write_wf {m n : Memory} {a : Word} {b : WordBytes} (h : m.write a b = .ok n) (hw : m.wf = true) :
    n.wf = true ∧ n.size = m.size ∧ n.fill = m.fill := by
  rcases Memory.write_cases m a b with ⟨ha, h'⟩ | ⟨_, h'⟩ <;> rw [h'] at h
  · cases h
    exact ⟨Memory.setBytes_wf m _ b ((Memory.accepts_iff m a).1 ha).2 hw, rfl, rfl⟩
  · cases h

/-- A write then a read of the same address (R64, R79). -/
theorem Memory.read_write {m n : Memory} {a : Word} {b : WordBytes} (h : m.write a b = .ok n) : n.read a = .ok b := by
  rcases Memory.write_cases m a b with ⟨ha, h'⟩ | ⟨_, h'⟩ <;> rw [h'] at h
  · cases h
    have hr : (m.setBytes a.toNat b).accepts a = true := (Memory.accepts_congr rfl a).trans ha
    rw [Memory.read_of_accepts hr, Memory.setBytes_bytesAt]
  · cases h

end Sys2Proof.Machine
end

