-- ==== Sys2Proof/Laws/State.lean ====
section
/-! SUPPORT. One lemma per field per update of the state, and register access after each update. -/

namespace Sys2Proof.Machine

@[simp] theorem State.advance_pc (s : State) (d : Word) : (s.advance d).pc = s.nextPc := rfl
@[simp] theorem State.advance_nextPc (s : State) (d : Word) : (s.advance d).nextPc = s.nextPc + d := rfl
@[simp] theorem State.advance_regs (s : State) (d : Word) : (s.advance d).regs = s.regs := rfl
@[simp] theorem State.advance_hi (s : State) (d : Word) : (s.advance d).hi = s.hi := rfl
@[simp] theorem State.advance_lo (s : State) (d : Word) : (s.advance d).lo = s.lo := rfl
@[simp] theorem State.advance_mem (s : State) (d : Word) : (s.advance d).mem = s.mem := rfl
@[simp] theorem State.advance_params (s : State) (d : Word) : (s.advance d).params = s.params := rfl
@[simp] theorem State.advance_status (s : State) (d : Word) : (s.advance d).status = s.status := rfl
@[simp] theorem State.advance_requests (s : State) (d : Word) : (s.advance d).requests = s.requests := rfl
@[simp] theorem State.advance_getReg (s : State) (d : Word) (r : Reg) : (s.advance d).getReg r = s.getReg r := rfl

@[simp] theorem State.jumpTo_pc (s : State) (t : Word) : (s.jumpTo t).pc = s.nextPc := rfl
@[simp] theorem State.jumpTo_nextPc (s : State) (t : Word) : (s.jumpTo t).nextPc = t := rfl
@[simp] theorem State.jumpTo_regs (s : State) (t : Word) : (s.jumpTo t).regs = s.regs := rfl
@[simp] theorem State.jumpTo_hi (s : State) (t : Word) : (s.jumpTo t).hi = s.hi := rfl
@[simp] theorem State.jumpTo_lo (s : State) (t : Word) : (s.jumpTo t).lo = s.lo := rfl
@[simp] theorem State.jumpTo_mem (s : State) (t : Word) : (s.jumpTo t).mem = s.mem := rfl
@[simp] theorem State.jumpTo_params (s : State) (t : Word) : (s.jumpTo t).params = s.params := rfl
@[simp] theorem State.jumpTo_status (s : State) (t : Word) : (s.jumpTo t).status = s.status := rfl
@[simp] theorem State.jumpTo_requests (s : State) (t : Word) : (s.jumpTo t).requests = s.requests := rfl
@[simp] theorem State.jumpTo_getReg (s : State) (t : Word) (r : Reg) : (s.jumpTo t).getReg r = s.getReg r := rfl

@[simp] theorem State.setHiLo_pc (s : State) (h l : Word) : (s.setHiLo h l).pc = s.pc := rfl
@[simp] theorem State.setHiLo_nextPc (s : State) (h l : Word) : (s.setHiLo h l).nextPc = s.nextPc := rfl
@[simp] theorem State.setHiLo_regs (s : State) (h l : Word) : (s.setHiLo h l).regs = s.regs := rfl
@[simp] theorem State.setHiLo_hi (s : State) (h l : Word) : (s.setHiLo h l).hi = h := rfl
@[simp] theorem State.setHiLo_lo (s : State) (h l : Word) : (s.setHiLo h l).lo = l := rfl
@[simp] theorem State.setHiLo_mem (s : State) (h l : Word) : (s.setHiLo h l).mem = s.mem := rfl
@[simp] theorem State.setHiLo_params (s : State) (h l : Word) : (s.setHiLo h l).params = s.params := rfl
@[simp] theorem State.setHiLo_status (s : State) (h l : Word) : (s.setHiLo h l).status = s.status := rfl
@[simp] theorem State.setHiLo_requests (s : State) (h l : Word) : (s.setHiLo h l).requests = s.requests := rfl
@[simp] theorem State.setHiLo_getReg (s : State) (h l : Word) (r : Reg) : (s.setHiLo h l).getReg r = s.getReg r := rfl

@[simp] theorem State.setHi_pc (s : State) (h : Word) : (s.setHi h).pc = s.pc := rfl
@[simp] theorem State.setHi_nextPc (s : State) (h : Word) : (s.setHi h).nextPc = s.nextPc := rfl
@[simp] theorem State.setHi_regs (s : State) (h : Word) : (s.setHi h).regs = s.regs := rfl
@[simp] theorem State.setHi_hi (s : State) (h : Word) : (s.setHi h).hi = h := rfl
@[simp] theorem State.setHi_lo (s : State) (h : Word) : (s.setHi h).lo = s.lo := rfl
@[simp] theorem State.setHi_mem (s : State) (h : Word) : (s.setHi h).mem = s.mem := rfl
@[simp] theorem State.setHi_params (s : State) (h : Word) : (s.setHi h).params = s.params := rfl
@[simp] theorem State.setHi_status (s : State) (h : Word) : (s.setHi h).status = s.status := rfl
@[simp] theorem State.setHi_requests (s : State) (h : Word) : (s.setHi h).requests = s.requests := rfl
@[simp] theorem State.setHi_getReg (s : State) (h : Word) (r : Reg) : (s.setHi h).getReg r = s.getReg r := rfl

@[simp] theorem State.setLo_pc (s : State) (l : Word) : (s.setLo l).pc = s.pc := rfl
@[simp] theorem State.setLo_nextPc (s : State) (l : Word) : (s.setLo l).nextPc = s.nextPc := rfl
@[simp] theorem State.setLo_regs (s : State) (l : Word) : (s.setLo l).regs = s.regs := rfl
@[simp] theorem State.setLo_hi (s : State) (l : Word) : (s.setLo l).hi = s.hi := rfl
@[simp] theorem State.setLo_lo (s : State) (l : Word) : (s.setLo l).lo = l := rfl
@[simp] theorem State.setLo_mem (s : State) (l : Word) : (s.setLo l).mem = s.mem := rfl
@[simp] theorem State.setLo_params (s : State) (l : Word) : (s.setLo l).params = s.params := rfl
@[simp] theorem State.setLo_status (s : State) (l : Word) : (s.setLo l).status = s.status := rfl
@[simp] theorem State.setLo_requests (s : State) (l : Word) : (s.setLo l).requests = s.requests := rfl
@[simp] theorem State.setLo_getReg (s : State) (l : Word) (r : Reg) : (s.setLo l).getReg r = s.getReg r := rfl

@[simp] theorem State.issue_pc (s : State) (q : Request) : (s.issue q).pc = s.pc := rfl
@[simp] theorem State.issue_nextPc (s : State) (q : Request) : (s.issue q).nextPc = s.nextPc := rfl
@[simp] theorem State.issue_regs (s : State) (q : Request) : (s.issue q).regs = s.regs := rfl
@[simp] theorem State.issue_hi (s : State) (q : Request) : (s.issue q).hi = s.hi := rfl
@[simp] theorem State.issue_lo (s : State) (q : Request) : (s.issue q).lo = s.lo := rfl
@[simp] theorem State.issue_mem (s : State) (q : Request) : (s.issue q).mem = s.mem := rfl
@[simp] theorem State.issue_params (s : State) (q : Request) : (s.issue q).params = s.params := rfl
@[simp] theorem State.issue_status (s : State) (q : Request) : (s.issue q).status = s.status := rfl
@[simp] theorem State.issue_requests (s : State) (q : Request) : (s.issue q).requests = s.requests ++ [q] := rfl
@[simp] theorem State.issue_getReg (s : State) (q : Request) (r : Reg) : (s.issue q).getReg r = s.getReg r := rfl

@[simp] theorem State.begin_pc (s : State) : (s.begin).pc = s.pc := rfl
@[simp] theorem State.begin_nextPc (s : State) : (s.begin).nextPc = s.nextPc := rfl
@[simp] theorem State.begin_regs (s : State) : (s.begin).regs = s.regs := rfl
@[simp] theorem State.begin_hi (s : State) : (s.begin).hi = s.hi := rfl
@[simp] theorem State.begin_lo (s : State) : (s.begin).lo = s.lo := rfl
@[simp] theorem State.begin_mem (s : State) : (s.begin).mem = s.mem := rfl
@[simp] theorem State.begin_params (s : State) : (s.begin).params = s.params := rfl
@[simp] theorem State.begin_status (s : State) : (s.begin).status = s.status := rfl
@[simp] theorem State.begin_requests (s : State) : (s.begin).requests = [] := rfl
@[simp] theorem State.begin_getReg (s : State) (r : Reg) : (s.begin).getReg r = s.getReg r := rfl

/-- Register access looks at the registers alone. -/
theorem State.getReg_congr {s t : State} (h : t.regs = s.regs) (r : Reg) : t.getReg r = s.getReg r := by
  simp only [State.getReg, h]

@[simp] theorem State.getReg_zero (s : State) : s.getReg 0#5 = 0x00000000#32 := rfl

@[simp] theorem State.setReg_zero (s : State) (v : Word) : s.setReg 0#5 v = s := rfl

theorem State.setReg_of_ne (s : State) {r : Reg} (h : r ≠ 0#5) (v : Word) :
    s.setReg r v = { s with regs := s.regs.set r.toNat v r.isLt } := if_neg h

@[simp] theorem State.setReg_pc (s : State) (r : Reg) (v : Word) : (s.setReg r v).pc = s.pc := by
  unfold State.setReg; split <;> rfl

@[simp] theorem State.setReg_nextPc (s : State) (r : Reg) (v : Word) : (s.setReg r v).nextPc = s.nextPc := by
  unfold State.setReg; split <;> rfl

@[simp] theorem State.setReg_hi (s : State) (r : Reg) (v : Word) : (s.setReg r v).hi = s.hi := by
  unfold State.setReg; split <;> rfl

@[simp] theorem State.setReg_lo (s : State) (r : Reg) (v : Word) : (s.setReg r v).lo = s.lo := by
  unfold State.setReg; split <;> rfl

@[simp] theorem State.setReg_mem (s : State) (r : Reg) (v : Word) : (s.setReg r v).mem = s.mem := by
  unfold State.setReg; split <;> rfl

@[simp] theorem State.setReg_params (s : State) (r : Reg) (v : Word) : (s.setReg r v).params = s.params := by
  unfold State.setReg; split <;> rfl

@[simp] theorem State.setReg_status (s : State) (r : Reg) (v : Word) : (s.setReg r v).status = s.status := by
  unfold State.setReg; split <;> rfl

@[simp] theorem State.setReg_requests (s : State) (r : Reg) (v : Word) : (s.setReg r v).requests = s.requests := by
  unfold State.setReg; split <;> rfl

/-- A register read after a register write (R14, R21). -/
theorem State.setReg_getReg (s : State) (r q : Reg) (v : Word) :
    (s.setReg r v).getReg q = if q = 0#5 then 0x00000000#32 else if q = r then v else s.getReg q := by
  by_cases hq : q = 0#5
  · simp [hq]
  by_cases hr : r = 0#5
  · subst hr; rw [State.setReg_zero, if_neg hq, if_neg hq]
  rw [State.setReg_of_ne s hr, if_neg hq]
  simp only [State.getReg]
  by_cases hqr : q = r
  · subst hqr; simp [hq]
  · have : r.toNat ≠ q.toNat := fun h => hqr (BitVec.eq_of_toNat_eq h.symm)
    simp [Vector.getElem_set_ne, this, hqr]

theorem State.setReg_getReg_self (s : State) {r : Reg} (h : r ≠ 0#5) (v : Word) : (s.setReg r v).getReg r = v := by
  simp [State.setReg_getReg, h]

theorem State.setReg_getReg_ne (s : State) {r q : Reg} (h : q ≠ r) (v : Word) : (s.setReg r v).getReg q = s.getReg q := by
  by_cases hq : q = 0#5
  · simp [hq]
  · simp [State.setReg_getReg, hq, h]

/-- The cell of register 0 is written by no register write. -/
@[simp] theorem State.setReg_regs_zero (s : State) (r : Reg) (v : Word) : (s.setReg r v).regs[0] = s.regs[0] := by
  by_cases hr : r = 0#5
  · simp [hr]
  · rw [State.setReg_of_ne s hr]
    have : r.toNat ≠ 0 := fun h => hr (BitVec.eq_of_toNat_eq h)
    simp [Vector.getElem_set_ne, this]

end Sys2Proof.Machine
end

