-- ==== Sys2Proof/Laws/Ops.lean ====
section
/-! SUPPORT. What each shared operation can do, said once: the ends of a step, the memory port, the load and store
shapes, fetch and step. Later proofs cite these instead of unfolding the operations. -/

namespace Sys2Proof.Machine

/-! ## How a step ends -/

theorem State.tail_eq (s : State) :
    s.tail = .next { s with pc := s.nextPc, nextPc := s.nextPc + 4#32, status := some .success } := rfl

theorem State.raise_eq (s : State) (e : Status) : s.raise e = .next { s with status := some e } := rfl

theorem State.succeed_eq (s : State) : s.succeed = .next { s with status := some .success } := rfl

/-- A branch always succeeds; it moves `nextPc` by the offset or by 4 (R400). -/
theorem State.branch_eq (s : State) (taken : Bool) (offset : Half) :
    s.branch taken offset = .next
      { s with pc := s.nextPc, nextPc := s.nextPc + (if taken then boff offset else 4#32), status := some .success } := by
  cases taken <;> rfl

/-! ## Addresses -/

theorem align4_eq_shift (a : Word) : align4 a = (a >>> 2) <<< 2 := by
  apply BitVec.eq_of_getLsbD_eq
  intro i hi
  have hm : (0xFFFFFFFC#32 : Word).getLsbD i = decide (2 ≤ i) := by revert i; decide
  rw [align4, BitVec.getLsbD_and, hm, BitVec.getLsbD_shiftLeft, BitVec.getLsbD_ushiftRight]
  by_cases h : 2 ≤ i
  · have : ¬ i < 2 := by omega
    simp [hi, h, this]
  · have : i < 2 := by omega
    simp [h, this]

theorem align4_toNat (a : Word) : (align4 a).toNat = a.toNat / 4 * 4 := by
  have := a.isLt
  rw [align4_eq_shift, BitVec.toNat_shiftLeft, BitVec.toNat_ushiftRight, Nat.shiftLeft_eq, Nat.shiftRight_eq_div_pow]
  omega

theorem laneOf_toNat (a : Word) : (laneOf a).toNat = a.toNat % 4 := by simp [laneOf]

theorem halfAligned_iff (a : Word) : halfAligned (laneOf a) = true ↔ a.toNat % 2 = 0 := by
  have h := laneOf_toNat a
  simp only [halfAligned, Bool.or_eq_true, beq_iff_eq, ← BitVec.toNat_inj, h]
  simp; omega

/-- A data request is refused only for lack of room: its address is aligned (R72). -/
theorem Memory.accepts_align4 (m : Memory) (a : Word) :
    m.accepts (align4 a) = true ↔ a.toNat / 4 * 4 + 4 ≤ m.size := by
  rw [Memory.accepts_iff, align4_toNat]; omega

/-! ## The memory port -/

theorem State.readWord_ok {s : State} {a : Word} (h : s.mem.accepts a = true) (k : Word → State → Outcome) :
    s.readWord a k = k (decodeWord (s.mem.bytesAt a.toNat)) (s.issue (.read a 4)) := by
  simp [State.readWord, Memory.read_of_accepts h]

theorem State.readWord_refused {s : State} {a : Word} (h : s.mem.accepts a = false) (k : Word → State → Outcome) :
    s.readWord a k = (s.issue (.read a 4)).raise (.memoryError .memErr) := by
  simp [State.readWord, Memory.read_of_not_accepts h]

theorem State.writeWord_ok {s : State} {a : Word} (h : s.mem.accepts a = true) (v : Word) (k : State → Outcome) :
    s.writeWord a v k = k { s.issue (.write a 4 v) with mem := s.mem.setBytes a.toNat (encodeWord v) } := by
  simp [State.writeWord, Memory.write_of_accepts h]

theorem State.writeWord_refused {s : State} {a : Word} (h : s.mem.accepts a = false) (v : Word) (k : State → Outcome) :
    s.writeWord a v k = (s.issue (.write a 4 v)).raise (.memoryError .memErr) := by
  simp [State.writeWord, Memory.write_of_not_accepts h]

/-! ## The load and store shapes (R505) -/

theorem State.load_ok {s : State} {offset : Half} {base : Reg} (h : s.mem.accepts (align4 (s.ea base offset)) = true)
    (rt : Reg) (value : Word → BitVec 2 → Word) :
    s.load rt offset base value = ((s.issue (.read (align4 (s.ea base offset)) 4)).setReg rt
      (value (decodeWord (s.mem.bytesAt (align4 (s.ea base offset)).toNat)) (laneOf (s.ea base offset)))).tail := by
  unfold State.load
  exact State.readWord_ok h _

theorem State.load_refused {s : State} {offset : Half} {base : Reg}
    (h : s.mem.accepts (align4 (s.ea base offset)) = false) (rt : Reg) (value : Word → BitVec 2 → Word) :
    s.load rt offset base value =
      (s.issue (.read (align4 (s.ea base offset)) 4)).raise (.memoryError .memErr) := by
  unfold State.load
  exact State.readWord_refused h _

/-- The state after the two requests of SB or SH. -/
def State.afterStoreLane (s : State) (a v : Word) : State :=
  { (s.issue (.read a 4)).issue (.write a 4 v) with mem := s.mem.setBytes a.toNat (encodeWord v) }

theorem State.storeLane_ok {s : State} {offset : Half} {base : Reg}
    (h : s.mem.accepts (align4 (s.ea base offset)) = true) (put : Word → BitVec 2 → Word) :
    s.storeLane offset base put = (s.afterStoreLane (align4 (s.ea base offset))
      (put (decodeWord (s.mem.bytesAt (align4 (s.ea base offset)).toNat)) (laneOf (s.ea base offset)))).tail := by
  unfold State.storeLane
  simp only [State.readWord_ok h]
  exact State.writeWord_ok (s := s.issue _) h _ _

theorem State.storeLane_refused {s : State} {offset : Half} {base : Reg}
    (h : s.mem.accepts (align4 (s.ea base offset)) = false) (put : Word → BitVec 2 → Word) :
    s.storeLane offset base put =
      (s.issue (.read (align4 (s.ea base offset)) 4)).raise (.memoryError .memErr) := by
  unfold State.storeLane
  exact State.readWord_refused h _

/-! ## Fetch and step -/

/-- All that fetch and decode can do (R141, R142). -/
theorem State.fetch_cases (s : State) :
    (s.mem.accepts s.pc = false ∧
      s.fetch = .stop ((s.begin.issue (.read s.pc 4)).raise (.memoryError .memErr))) ∨
    (∃ e, s.mem.accepts s.pc = true ∧ decodeBytes s.params (s.mem.bytesAt s.pc.toNat) = .error e ∧
      s.fetch = .stop ((s.begin.issue (.read s.pc 4)).raise .invalidInstruction)) ∨
    (∃ i, s.mem.accepts s.pc = true ∧ decodeBytes s.params (s.mem.bytesAt s.pc.toNat) = .ok i ∧
      s.fetch = .run i (s.begin.issue (.read s.pc 4))) := by
  cases h : s.mem.accepts s.pc
  · exact .inl ⟨rfl, by simp [State.fetch, Memory.read_of_not_accepts h]⟩
  · cases hd : decodeBytes s.params (s.mem.bytesAt s.pc.toNat) with
    | error e => exact .inr (.inl ⟨e, rfl, rfl, by simp [State.fetch, Memory.read_of_accepts h, hd]⟩)
    | ok i => exact .inr (.inr ⟨i, rfl, rfl, by simp [State.fetch, Memory.read_of_accepts h, hd]⟩)

/-- The state in which a step's instruction executes: the fetch request is recorded. -/
theorem State.begin_issue_eq (s : State) : s.begin.issue (.read s.pc 4) = { s with requests := [.read s.pc 4] } := rfl

/-- All that a step can do: a fetch refused, a word that is no instruction, or an instruction executed. -/
theorem step_cases (s : State) :
    (s.mem.accepts s.pc = false ∧
      step s = .next { s with status := some (.memoryError .memErr), requests := [.read s.pc 4] }) ∨
    (∃ e, s.mem.accepts s.pc = true ∧ decodeBytes s.params (s.mem.bytesAt s.pc.toNat) = .error e ∧
      step s = .next { s with status := some .invalidInstruction, requests := [.read s.pc 4] }) ∨
    (∃ i, s.mem.accepts s.pc = true ∧ decodeBytes s.params (s.mem.bytesAt s.pc.toNat) = .ok i ∧
      step s = exec i { s with requests := [.read s.pc 4] }) := by
  rcases s.fetch_cases with ⟨h, hf⟩ | ⟨e, h, hd, hf⟩ | ⟨i, h, hd, hf⟩
  · exact .inl ⟨h, by simp only [step, hf]; rfl⟩
  · exact .inr (.inl ⟨e, h, hd, by simp only [step, hf]; rfl⟩)
  · exact .inr (.inr ⟨i, h, hd, by simp only [step, hf]; rfl⟩)

end Sys2Proof.Machine
end

