-- ==== Sys2Proof/Laws/Exec.lean ====
section
/-! SUPPORT. Everything an instruction can do, said once: each execute phase has one of the shapes below, so that a fact
about every instruction is proved by cases on the shape and not on 53 meanings. -/

namespace Sys2Proof.Machine

/-- How the execute phase of `i` from `s` ends. -/
inductive ExecShape (i : Instr) (s : State) : Prop where
  /-- A common-tail instruction with no memory request writes one general register. -/
  | register (rd : Reg) (v : Word) (hd : destReg i = some rd) (hc : ownControl i = false) (hm : dataOperand i = none)
      (he : exec i s = (s.setReg rd v).tail)
  /-- A multiply, divide or move writes HI and LO. -/
  | hilo (h l : Word) (hw : writesHiLo i = true) (hc : ownControl i = false) (hm : dataOperand i = none)
      (he : exec i s = (s.setHiLo h l).tail)
  /-- ADD, SUB or ADDI overflows. -/
  | overflow (hc : ownControl i = false) (hm : dataOperand i = none) (he : exec i s = s.raise .arithmeticOverflow)
  /-- LH, LHU or SH at an odd address. -/
  | misaligned (offset : Half) (base : Reg) (hc : ownControl i = false) (hm : dataOperand i = some (offset, base))
      (he : exec i s = s.raise .invalidAlignment)
  /-- DIVU by zero. -/
  | divideByZero (rs rt : Reg) (hi : i = .divu rs rt) (hz : s.getReg rt = 0#32)
      (he : exec i s = State.raise (if s.params.divuZeroCommitsHilo then s.setHiLo 0#32 0#32 else s) .invalidInstruction)
  /-- A control transfer with no link. -/
  | control (target : Word) (hc : ownControl i = true) (hd : destReg i = none) (hm : dataOperand i = none)
      (he : exec i s = (s.jumpTo target).succeed)
  /-- A control transfer that links. -/
  | link (rd : Reg) (target : Word) (hc : ownControl i = true) (hd : destReg i = some rd) (hm : dataOperand i = none)
      (he : exec i s = ((s.setReg rd s.link).jumpTo target).succeed)
  /-- A load whose word is in the memory. -/
  | load (rt : Reg) (offset : Half) (base : Reg) (v : Word) (hd : destReg i = some rt) (hc : ownControl i = false)
      (hs : isStore i = false) (hm : dataOperand i = some (offset, base))
      (ha : s.mem.accepts (align4 (s.ea base offset)) = true)
      (he : exec i s = ((s.issue (.read (align4 (s.ea base offset)) 4)).setReg rt v).tail)
  /-- A load, or the read of SB or SH, that the memory refuses. -/
  | readRefused (offset : Half) (base : Reg) (hc : ownControl i = false) (hm : dataOperand i = some (offset, base))
      (ha : s.mem.accepts (align4 (s.ea base offset)) = false)
      (he : exec i s = (s.issue (.read (align4 (s.ea base offset)) 4)).raise (.memoryError .memErr))
  /-- SB or SH. -/
  | storeLane (offset : Half) (base : Reg) (v : Word)
      (hi : ∃ rt, i = .sb rt offset base ∨ i = .sh rt offset base)
      (ha : s.mem.accepts (align4 (s.ea base offset)) = true)
      (he : exec i s = (s.afterStoreLane (align4 (s.ea base offset)) v).tail)
  /-- SW. -/
  | storeWord (rt : Reg) (offset : Half) (base : Reg) (hi : i = .sw rt offset base)
      (ha : s.mem.accepts (align4 (s.ea base offset)) = true)
      (he : exec i s = State.tail { s.issue (.write (align4 (s.ea base offset)) 4 (s.getReg rt)) with
        mem := s.mem.setBytes (align4 (s.ea base offset)).toNat (encodeWord (s.getReg rt)) })
  /-- SW that the memory refuses. -/
  | writeRefused (rt : Reg) (offset : Half) (base : Reg) (hi : i = .sw rt offset base)
      (ha : s.mem.accepts (align4 (s.ea base offset)) = false)
      (he : exec i s =
        (s.issue (.write (align4 (s.ea base offset)) 4 (s.getReg rt))).raise (.memoryError .memErr))

/-- A branch is a jump to its target. -/
theorem State.branch_eq_jumpTo (s : State) (taken : Bool) (offset : Half) :
    s.branch taken offset = (s.jumpTo (s.nextPc + (if taken then boff offset else 4#32))).succeed := by
  cases taken <;> rfl

/-- A linking branch is a jump after the link is written. -/
theorem State.branchAndLink_eq_jumpTo (s : State) (taken : Bool) (offset : Half) (r : Reg) :
    s.branchAndLink taken offset r =
      ((s.setReg r s.link).jumpTo (s.nextPc + (if taken then boff offset else 4#32))).succeed := by
  rw [State.branchAndLink, State.branch_eq_jumpTo, State.setReg_nextPc]

/-- A load has one of two shapes. -/
theorem ExecShape.ofLoad {i : Instr} {s : State} {rt : Reg} {offset : Half} {base : Reg} {value : Word → BitVec 2 → Word}
    (hd : destReg i = some rt) (hc : ownControl i = false) (hs : isStore i = false)
    (hm : dataOperand i = some (offset, base)) (he : exec i s = s.load rt offset base value) : ExecShape i s := by
  cases ha : s.mem.accepts (align4 (s.ea base offset))
  · exact .readRefused offset base hc hm ha (he.trans (State.load_refused ha rt value))
  · exact .load rt offset base _ hd hc hs hm ha (he.trans (State.load_ok ha rt value))

/-- SB and SH have one of two shapes once the alignment is right. -/
theorem ExecShape.ofStoreLane {i : Instr} {s : State} {offset : Half} {base : Reg} {put : Word → BitVec 2 → Word}
    (hi : ∃ rt, i = .sb rt offset base ∨ i = .sh rt offset base)
    (he : exec i s = s.storeLane offset base put) : ExecShape i s := by
  cases ha : s.mem.accepts (align4 (s.ea base offset))
  · refine .readRefused offset base ?_ ?_ ha (he.trans (State.storeLane_refused ha put)) <;>
      obtain ⟨rt, rfl | rfl⟩ := hi <;> rfl
  · exact .storeLane offset base _ hi ha (he.trans (State.storeLane_ok ha put))

/-- ADD, SUB and ADDI write their sum or overflow. -/
theorem ExecShape.ofOverflow {i : Instr} {s : State} {rd : Reg} {r : Option Word} (hd : destReg i = some rd)
    (hc : ownControl i = false) (hm : dataOperand i = none)
    (he : exec i s = match r with | some v => (s.setReg rd v).tail | none => s.raise .arithmeticOverflow) :
    ExecShape i s := by
  cases r with
  | none => exact .overflow hc hm he
  | some v => exact .register rd v hd hc hm he

/-- LH, LHU and SH check their alignment first. -/
theorem ExecShape.ofAligned {i : Instr} {s : State} {offset : Half} {base : Reg} {o : Outcome}
    (hc : ownControl i = false) (hm : dataOperand i = some (offset, base))
    (he : exec i s = if halfAligned (laneOf (s.ea base offset)) then o else s.raise .invalidAlignment)
    (hok : exec i s = o → ExecShape i s) : ExecShape i s := by
  cases ha : halfAligned (laneOf (s.ea base offset))
  · rw [ha] at he
    exact .misaligned offset base hc hm he
  · rw [ha] at he
    exact hok he

/-- What DIVU by zero does. -/
theorem exec_divu_zero {s : State} {rt : Reg} (rs : Reg) (h : s.getReg rt = 0#32) :
    exec (.divu rs rt) s =
      State.raise (if s.params.divuZeroCommitsHilo then s.setHiLo 0#32 0#32 else s) .invalidInstruction := if_pos h

/-- Every execute phase has one of the shapes. -/
theorem exec_shape (i : Instr) (s : State) : ExecShape i s := by
  cases i with
  | add => exact .ofOverflow rfl rfl rfl rfl
  | addu => exact .register _ _ rfl rfl rfl rfl
  | sub => exact .ofOverflow rfl rfl rfl rfl
  | subu => exact .register _ _ rfl rfl rfl rfl
  | and => exact .register _ _ rfl rfl rfl rfl
  | or => exact .register _ _ rfl rfl rfl rfl
  | xor => exact .register _ _ rfl rfl rfl rfl
  | slt => exact .register _ _ rfl rfl rfl rfl
  | sltu => exact .register _ _ rfl rfl rfl rfl
  | sll => exact .register _ _ rfl rfl rfl rfl
  | srl => exact .register _ _ rfl rfl rfl rfl
  | sra => exact .register _ _ rfl rfl rfl rfl
  | sllv => exact .register _ _ rfl rfl rfl rfl
  | srlv => exact .register _ _ rfl rfl rfl rfl
  | srav => exact .register _ _ rfl rfl rfl rfl
  | addi => exact .ofOverflow rfl rfl rfl rfl
  | addiu => exact .register _ _ rfl rfl rfl rfl
  | slti => exact .register _ _ rfl rfl rfl rfl
  | sltiu => exact .register _ _ rfl rfl rfl rfl
  | andi => exact .register _ _ rfl rfl rfl rfl
  | ori => exact .register _ _ rfl rfl rfl rfl
  | xori => exact .register _ _ rfl rfl rfl rfl
  | lui => exact .register _ _ rfl rfl rfl rfl
  | mult => exact .hilo _ _ rfl rfl rfl rfl
  | multu => exact .hilo _ _ rfl rfl rfl rfl
  | div => exact .hilo _ _ rfl rfl rfl rfl
  | divu rs rt =>
    by_cases hz : s.getReg rt = 0#32
    · exact .divideByZero rs rt rfl hz (if_pos hz)
    · exact .hilo _ _ rfl rfl rfl (if_neg hz)
  | mfhi => exact .register _ _ rfl rfl rfl rfl
  | mflo => exact .register _ _ rfl rfl rfl rfl
  | mthi => exact .hilo _ s.lo rfl rfl rfl rfl
  | mtlo => exact .hilo s.hi _ rfl rfl rfl rfl
  | beq => exact .control _ rfl rfl rfl (State.branch_eq_jumpTo ..)
  | bne => exact .control _ rfl rfl rfl (State.branch_eq_jumpTo ..)
  | blez => exact .control _ rfl rfl rfl (State.branch_eq_jumpTo ..)
  | bgtz => exact .control _ rfl rfl rfl (State.branch_eq_jumpTo ..)
  | bltz => exact .control _ rfl rfl rfl (State.branch_eq_jumpTo ..)
  | bgez => exact .control _ rfl rfl rfl (State.branch_eq_jumpTo ..)
  | bltzal => exact .link _ _ rfl rfl rfl (State.branchAndLink_eq_jumpTo ..)
  | bgezal => exact .link _ _ rfl rfl rfl (State.branchAndLink_eq_jumpTo ..)
  | j => exact .control _ rfl rfl rfl rfl
  | jal => exact .link _ _ rfl rfl rfl rfl
  | jr => exact .control _ rfl rfl rfl rfl
  | jalr => exact .link _ _ rfl rfl rfl rfl
  | lb => exact .ofLoad rfl rfl rfl rfl (by rw [exec, execLb])
  | lbu => exact .ofLoad rfl rfl rfl rfl (by rw [exec, execLbu])
  | lh => exact .ofAligned rfl rfl (by rw [exec, execLh]) (.ofLoad rfl rfl rfl rfl)
  | lhu => exact .ofAligned rfl rfl (by rw [exec, execLhu]) (.ofLoad rfl rfl rfl rfl)
  | lw => exact .ofLoad rfl rfl rfl rfl (by rw [exec, execLw])
  | lwl => exact .ofLoad rfl rfl rfl rfl (by rw [exec, execLwl])
  | lwr => exact .ofLoad rfl rfl rfl rfl (by rw [exec, execLwr])
  | sb => exact .ofStoreLane ⟨_, .inl rfl⟩ (by rw [exec, execSb])
  | sh => exact .ofAligned rfl rfl (by rw [exec, execSh]) (.ofStoreLane ⟨_, .inr rfl⟩)
  | sw rt offset base =>
    cases ha : s.mem.accepts (align4 (s.ea base offset))
    · exact .writeRefused rt offset base rfl ha (State.writeWord_refused ha _ _)
    · exact .storeWord rt offset base rfl ha (State.writeWord_ok ha _ _)

end Sys2Proof.Machine
end

