-- ==== Sys2Proof/Laws/PerInstr.lean ====
section
/-! SUPPORT. Per instruction: its encoding matches the row of spec/opcode_table.json that carries its name (R126). -/

namespace Sys2Proof.Laws

open Sys2Proof

/-- Masking an R-type word masks its fields. -/
theorem rWord_and (rs rt rd : Reg) (sa : BitVec 5) (f : BitVec 6) (mrs mrt mrd : Reg) (msa : BitVec 5) :
    rWord rs rt rd sa f &&& (0x3F#6 ++ mrs ++ mrt ++ mrd ++ msa ++ 0x3F#6 : Word) =
      rWord (rs &&& mrs) (rt &&& mrt) (rd &&& mrd) (sa &&& msa) f := by
  have h : f &&& 0x3F#6 = f := BitVec.and_allOnes
  unfold rWord
  rw [BitVec.and_append, BitVec.and_append, BitVec.and_append, BitVec.and_append, BitVec.and_append, h]
  rfl

/-- Masking an I-type word masks its fields. -/
theorem iWord_and (op : BitVec 6) (rs rt : Reg) (imm : Half) (mrs mrt : Reg) (mi : Half) :
    iWord op rs rt imm &&& (0x3F#6 ++ mrs ++ mrt ++ mi : Word) = iWord op (rs &&& mrs) (rt &&& mrt) (imm &&& mi) := by
  have h : op &&& 0x3F#6 = op := BitVec.and_allOnes
  unfold iWord
  rw [BitVec.and_append, BitVec.and_append, BitVec.and_append, h]

/-- Masking a J-type word down to its opcode drops the target. -/
theorem jWord_and (op : BitVec 6) (t : BitVec 26) : jWord op t &&& (0x3F#6 ++ 0#26 : Word) = jWord op 0#26 := by
  have h : op &&& 0x3F#6 = op := BitVec.and_allOnes
  unfold jWord
  rw [BitVec.and_append, h, BitVec.and_zero]

theorem rWord_meets {rs rt rd : Reg} {sa : BitVec 5} {f : BitVec 6} {mask pattern : Word} (mrs mrt mrd : Reg)
    (msa : BitVec 5) (hm : mask = 0x3F#6 ++ mrs ++ mrt ++ mrd ++ msa ++ 0x3F#6)
    (hp : rWord (rs &&& mrs) (rt &&& mrt) (rd &&& mrd) (sa &&& msa) f = pattern) :
    rWord rs rt rd sa f &&& mask = pattern := by
  rw [hm, rWord_and, hp]

theorem iWord_meets {op : BitVec 6} {rs rt : Reg} {imm : Half} {mask pattern : Word} (mrs mrt : Reg) (mi : Half)
    (hm : mask = 0x3F#6 ++ mrs ++ mrt ++ mi) (hp : iWord op (rs &&& mrs) (rt &&& mrt) (imm &&& mi) = pattern) :
    iWord op rs rt imm &&& mask = pattern := by
  rw [hm, iWord_and, hp]

theorem jWord_meets {op : BitVec 6} {t : BitVec 26} {mask pattern : Word} (hm : mask = 0x3F#6 ++ 0#26)
    (hp : jWord op 0#26 = pattern) : jWord op t &&& mask = pattern := by
  rw [hm, jWord_and, hp]

/-- A row that is present accepts a word that meets both its masks. -/
theorem accepts_of {p : Params} {r : OpcodeRow} {w : Word} (g : r.present p = true) (h : w &&& r.mask = r.pattern)
    (hs : w &&& r.maskStrict = r.pattern) : r.accepts p w = true := by
  unfold OpcodeRow.accepts
  cases p.strictReservedFields <;> simp [g, h, hs]

/-- On every machine that has the instruction, its word matches the row of its name. -/
def RowAccepts.Statement (i : Instr) : Prop :=
  ∀ p : Params, i.wf p = true → ∃ r ∈ opcodeTable, r.mnemonic = i.mnemonic ∧ r.accepts p (encode i) = true

theorem RowAccepts.add (rd rs rt : Reg) : RowAccepts.Statement (.add rd rs rt) := fun _ h =>
  ⟨⟨"ADD", 0x00000020#32, 0xFC0007FF#32, 0xFC0007FF#32, .always⟩, by decide, rfl, accepts_of h
    (rWord_meets 0#5 0#5 0#5 31#5 (by decide) (by simp; try decide))
    (rWord_meets 0#5 0#5 0#5 31#5 (by decide) (by simp; try decide))⟩

theorem RowAccepts.addu (rd rs rt : Reg) : RowAccepts.Statement (.addu rd rs rt) := fun _ h =>
  ⟨⟨"ADDU", 0x00000021#32, 0xFC0007FF#32, 0xFC0007FF#32, .always⟩, by decide, rfl, accepts_of h
    (rWord_meets 0#5 0#5 0#5 31#5 (by decide) (by simp; try decide))
    (rWord_meets 0#5 0#5 0#5 31#5 (by decide) (by simp; try decide))⟩

theorem RowAccepts.sub (rd rs rt : Reg) : RowAccepts.Statement (.sub rd rs rt) := fun _ h =>
  ⟨⟨"SUB", 0x00000022#32, 0xFC0007FF#32, 0xFC0007FF#32, .always⟩, by decide, rfl, accepts_of h
    (rWord_meets 0#5 0#5 0#5 31#5 (by decide) (by simp; try decide))
    (rWord_meets 0#5 0#5 0#5 31#5 (by decide) (by simp; try decide))⟩

theorem RowAccepts.subu (rd rs rt : Reg) : RowAccepts.Statement (.subu rd rs rt) := fun _ h =>
  ⟨⟨"SUBU", 0x00000023#32, 0xFC0007FF#32, 0xFC0007FF#32, .always⟩, by decide, rfl, accepts_of h
    (rWord_meets 0#5 0#5 0#5 31#5 (by decide) (by simp; try decide))
    (rWord_meets 0#5 0#5 0#5 31#5 (by decide) (by simp; try decide))⟩

theorem RowAccepts.and (rd rs rt : Reg) : RowAccepts.Statement (.and rd rs rt) := fun _ h =>
  ⟨⟨"AND", 0x00000024#32, 0xFC0007FF#32, 0xFC0007FF#32, .always⟩, by decide, rfl, accepts_of h
    (rWord_meets 0#5 0#5 0#5 31#5 (by decide) (by simp; try decide))
    (rWord_meets 0#5 0#5 0#5 31#5 (by decide) (by simp; try decide))⟩

theorem RowAccepts.or (rd rs rt : Reg) : RowAccepts.Statement (.or rd rs rt) := fun _ h =>
  ⟨⟨"OR", 0x00000025#32, 0xFC0007FF#32, 0xFC0007FF#32, .always⟩, by decide, rfl, accepts_of h
    (rWord_meets 0#5 0#5 0#5 31#5 (by decide) (by simp; try decide))
    (rWord_meets 0#5 0#5 0#5 31#5 (by decide) (by simp; try decide))⟩

theorem RowAccepts.xor (rd rs rt : Reg) : RowAccepts.Statement (.xor rd rs rt) := fun _ h =>
  ⟨⟨"XOR", 0x00000026#32, 0xFC0007FF#32, 0xFC0007FF#32, .always⟩, by decide, rfl, accepts_of h
    (rWord_meets 0#5 0#5 0#5 31#5 (by decide) (by simp; try decide))
    (rWord_meets 0#5 0#5 0#5 31#5 (by decide) (by simp; try decide))⟩

theorem RowAccepts.slt (rd rs rt : Reg) : RowAccepts.Statement (.slt rd rs rt) := fun _ h =>
  ⟨⟨"SLT", 0x0000002A#32, 0xFC0007FF#32, 0xFC0007FF#32, .always⟩, by decide, rfl, accepts_of h
    (rWord_meets 0#5 0#5 0#5 31#5 (by decide) (by simp; try decide))
    (rWord_meets 0#5 0#5 0#5 31#5 (by decide) (by simp; try decide))⟩

theorem RowAccepts.sltu (rd rs rt : Reg) : RowAccepts.Statement (.sltu rd rs rt) := fun _ h =>
  ⟨⟨"SLTU", 0x0000002B#32, 0xFC0007FF#32, 0xFC0007FF#32, .always⟩, by decide, rfl, accepts_of h
    (rWord_meets 0#5 0#5 0#5 31#5 (by decide) (by simp; try decide))
    (rWord_meets 0#5 0#5 0#5 31#5 (by decide) (by simp; try decide))⟩

theorem RowAccepts.sll (rd rt : Reg) (sa : BitVec 5) : RowAccepts.Statement (.sll rd rt sa) := fun _ h =>
  ⟨⟨"SLL", 0x00000000#32, 0xFC00003F#32, 0xFFE0003F#32, .always⟩, by decide, rfl, accepts_of h
    (rWord_meets 0#5 0#5 0#5 0#5 (by decide) (by simp; try decide))
    (rWord_meets 31#5 0#5 0#5 0#5 (by decide) (by simp; try decide))⟩

theorem RowAccepts.srl (rd rt : Reg) (sa : BitVec 5) : RowAccepts.Statement (.srl rd rt sa) := fun _ h =>
  ⟨⟨"SRL", 0x00000002#32, 0xFC00003F#32, 0xFFE0003F#32, .always⟩, by decide, rfl, accepts_of h
    (rWord_meets 0#5 0#5 0#5 0#5 (by decide) (by simp; try decide))
    (rWord_meets 31#5 0#5 0#5 0#5 (by decide) (by simp; try decide))⟩

theorem RowAccepts.sra (rd rt : Reg) (sa : BitVec 5) : RowAccepts.Statement (.sra rd rt sa) := fun _ h =>
  ⟨⟨"SRA", 0x00000003#32, 0xFC00003F#32, 0xFFE0003F#32, .always⟩, by decide, rfl, accepts_of h
    (rWord_meets 0#5 0#5 0#5 0#5 (by decide) (by simp; try decide))
    (rWord_meets 31#5 0#5 0#5 0#5 (by decide) (by simp; try decide))⟩

theorem RowAccepts.sllv (rd rt rs : Reg) : RowAccepts.Statement (.sllv rd rt rs) := fun _ h =>
  ⟨⟨"SLLV", 0x00000004#32, 0xFC0007FF#32, 0xFC0007FF#32, .varShifts⟩, by decide, rfl, accepts_of h
    (rWord_meets 0#5 0#5 0#5 31#5 (by decide) (by simp; try decide))
    (rWord_meets 0#5 0#5 0#5 31#5 (by decide) (by simp; try decide))⟩

theorem RowAccepts.srlv (rd rt rs : Reg) : RowAccepts.Statement (.srlv rd rt rs) := fun _ h =>
  ⟨⟨"SRLV", 0x00000006#32, 0xFC0007FF#32, 0xFC0007FF#32, .varShifts⟩, by decide, rfl, accepts_of h
    (rWord_meets 0#5 0#5 0#5 31#5 (by decide) (by simp; try decide))
    (rWord_meets 0#5 0#5 0#5 31#5 (by decide) (by simp; try decide))⟩

theorem RowAccepts.srav (rd rt rs : Reg) : RowAccepts.Statement (.srav rd rt rs) := fun _ h =>
  ⟨⟨"SRAV", 0x00000007#32, 0xFC0007FF#32, 0xFC0007FF#32, .varShifts⟩, by decide, rfl, accepts_of h
    (rWord_meets 0#5 0#5 0#5 31#5 (by decide) (by simp; try decide))
    (rWord_meets 0#5 0#5 0#5 31#5 (by decide) (by simp; try decide))⟩

theorem RowAccepts.addi (rt rs : Reg) (imm : Half) : RowAccepts.Statement (.addi rt rs imm) := fun _ h =>
  ⟨⟨"ADDI", 0x20000000#32, 0xFC000000#32, 0xFC000000#32, .always⟩, by decide, rfl, accepts_of h
    (iWord_meets 0#5 0#5 0#16 (by decide) (by simp; try decide))
    (iWord_meets 0#5 0#5 0#16 (by decide) (by simp; try decide))⟩

theorem RowAccepts.addiu (rt rs : Reg) (imm : Half) : RowAccepts.Statement (.addiu rt rs imm) := fun _ h =>
  ⟨⟨"ADDIU", 0x24000000#32, 0xFC000000#32, 0xFC000000#32, .always⟩, by decide, rfl, accepts_of h
    (iWord_meets 0#5 0#5 0#16 (by decide) (by simp; try decide))
    (iWord_meets 0#5 0#5 0#16 (by decide) (by simp; try decide))⟩

theorem RowAccepts.slti (rt rs : Reg) (imm : Half) : RowAccepts.Statement (.slti rt rs imm) := fun _ h =>
  ⟨⟨"SLTI", 0x28000000#32, 0xFC000000#32, 0xFC000000#32, .always⟩, by decide, rfl, accepts_of h
    (iWord_meets 0#5 0#5 0#16 (by decide) (by simp; try decide))
    (iWord_meets 0#5 0#5 0#16 (by decide) (by simp; try decide))⟩

theorem RowAccepts.sltiu (rt rs : Reg) (imm : Half) : RowAccepts.Statement (.sltiu rt rs imm) := fun _ h =>
  ⟨⟨"SLTIU", 0x2C000000#32, 0xFC000000#32, 0xFC000000#32, .always⟩, by decide, rfl, accepts_of h
    (iWord_meets 0#5 0#5 0#16 (by decide) (by simp; try decide))
    (iWord_meets 0#5 0#5 0#16 (by decide) (by simp; try decide))⟩

theorem RowAccepts.andi (rt rs : Reg) (imm : Half) : RowAccepts.Statement (.andi rt rs imm) := fun _ h =>
  ⟨⟨"ANDI", 0x30000000#32, 0xFC000000#32, 0xFC000000#32, .always⟩, by decide, rfl, accepts_of h
    (iWord_meets 0#5 0#5 0#16 (by decide) (by simp; try decide))
    (iWord_meets 0#5 0#5 0#16 (by decide) (by simp; try decide))⟩

theorem RowAccepts.ori (rt rs : Reg) (imm : Half) : RowAccepts.Statement (.ori rt rs imm) := fun _ h =>
  ⟨⟨"ORI", 0x34000000#32, 0xFC000000#32, 0xFC000000#32, .always⟩, by decide, rfl, accepts_of h
    (iWord_meets 0#5 0#5 0#16 (by decide) (by simp; try decide))
    (iWord_meets 0#5 0#5 0#16 (by decide) (by simp; try decide))⟩

theorem RowAccepts.xori (rt rs : Reg) (imm : Half) : RowAccepts.Statement (.xori rt rs imm) := fun _ h =>
  ⟨⟨"XORI", 0x38000000#32, 0xFC000000#32, 0xFC000000#32, .always⟩, by decide, rfl, accepts_of h
    (iWord_meets 0#5 0#5 0#16 (by decide) (by simp; try decide))
    (iWord_meets 0#5 0#5 0#16 (by decide) (by simp; try decide))⟩

theorem RowAccepts.lui (rt : Reg) (imm : Half) : RowAccepts.Statement (.lui rt imm) := fun _ h =>
  ⟨⟨"LUI", 0x3C000000#32, 0xFC000000#32, 0xFFE00000#32, .always⟩, by decide, rfl, accepts_of h
    (iWord_meets 0#5 0#5 0#16 (by decide) (by simp; try decide))
    (iWord_meets 31#5 0#5 0#16 (by decide) (by simp; try decide))⟩

theorem RowAccepts.mult (rs rt : Reg) : RowAccepts.Statement (.mult rs rt) := fun _ h =>
  ⟨⟨"MULT", 0x00000018#32, 0xFC0007FF#32, 0xFC00FFFF#32, .always⟩, by decide, rfl, accepts_of h
    (rWord_meets 0#5 0#5 0#5 31#5 (by decide) (by simp; try decide))
    (rWord_meets 0#5 0#5 31#5 31#5 (by decide) (by simp; try decide))⟩

theorem RowAccepts.multu (rs rt : Reg) : RowAccepts.Statement (.multu rs rt) := fun _ h =>
  ⟨⟨"MULTU", 0x00000019#32, 0xFC0007FF#32, 0xFC00FFFF#32, .always⟩, by decide, rfl, accepts_of h
    (rWord_meets 0#5 0#5 0#5 31#5 (by decide) (by simp; try decide))
    (rWord_meets 0#5 0#5 31#5 31#5 (by decide) (by simp; try decide))⟩

theorem RowAccepts.div (rs rt : Reg) : RowAccepts.Statement (.div rs rt) := fun _ h =>
  ⟨⟨"DIV", 0x0000001A#32, 0xFC0007FF#32, 0xFC00FFFF#32, .always⟩, by decide, rfl, accepts_of h
    (rWord_meets 0#5 0#5 0#5 31#5 (by decide) (by simp; try decide))
    (rWord_meets 0#5 0#5 31#5 31#5 (by decide) (by simp; try decide))⟩

theorem RowAccepts.divu (rs rt : Reg) : RowAccepts.Statement (.divu rs rt) := fun _ h =>
  ⟨⟨"DIVU", 0x0000001B#32, 0xFC0007FF#32, 0xFC00FFFF#32, .always⟩, by decide, rfl, accepts_of h
    (rWord_meets 0#5 0#5 0#5 31#5 (by decide) (by simp; try decide))
    (rWord_meets 0#5 0#5 31#5 31#5 (by decide) (by simp; try decide))⟩

theorem RowAccepts.mfhi (rd : Reg) : RowAccepts.Statement (.mfhi rd) := fun _ h =>
  ⟨⟨"MFHI", 0x00000010#32, 0xFC0007FF#32, 0xFFFF07FF#32, .hiloMoves⟩, by decide, rfl, accepts_of h
    (rWord_meets 0#5 0#5 0#5 31#5 (by decide) (by simp; try decide))
    (rWord_meets 31#5 31#5 0#5 31#5 (by decide) (by simp; try decide))⟩

theorem RowAccepts.mflo (rd : Reg) : RowAccepts.Statement (.mflo rd) := fun _ h =>
  ⟨⟨"MFLO", 0x00000012#32, 0xFC0007FF#32, 0xFFFF07FF#32, .hiloMoves⟩, by decide, rfl, accepts_of h
    (rWord_meets 0#5 0#5 0#5 31#5 (by decide) (by simp; try decide))
    (rWord_meets 31#5 31#5 0#5 31#5 (by decide) (by simp; try decide))⟩

theorem RowAccepts.mthi (rs : Reg) : RowAccepts.Statement (.mthi rs) := fun _ h =>
  ⟨⟨"MTHI", 0x00000011#32, 0xFC0007FF#32, 0xFC1FFFFF#32, .hiloMoves⟩, by decide, rfl, accepts_of h
    (rWord_meets 0#5 0#5 0#5 31#5 (by decide) (by simp; try decide))
    (rWord_meets 0#5 31#5 31#5 31#5 (by decide) (by simp; try decide))⟩

theorem RowAccepts.mtlo (rs : Reg) : RowAccepts.Statement (.mtlo rs) := fun _ h =>
  ⟨⟨"MTLO", 0x00000013#32, 0xFC0007FF#32, 0xFC1FFFFF#32, .hiloMoves⟩, by decide, rfl, accepts_of h
    (rWord_meets 0#5 0#5 0#5 31#5 (by decide) (by simp; try decide))
    (rWord_meets 0#5 31#5 31#5 31#5 (by decide) (by simp; try decide))⟩

theorem RowAccepts.beq (rs rt : Reg) (offset : Half) : RowAccepts.Statement (.beq rs rt offset) := fun _ h =>
  ⟨⟨"BEQ", 0x10000000#32, 0xFC000000#32, 0xFC000000#32, .always⟩, by decide, rfl, accepts_of h
    (iWord_meets 0#5 0#5 0#16 (by decide) (by simp; try decide))
    (iWord_meets 0#5 0#5 0#16 (by decide) (by simp; try decide))⟩

theorem RowAccepts.bne (rs rt : Reg) (offset : Half) : RowAccepts.Statement (.bne rs rt offset) := fun _ h =>
  ⟨⟨"BNE", 0x14000000#32, 0xFC000000#32, 0xFC000000#32, .always⟩, by decide, rfl, accepts_of h
    (iWord_meets 0#5 0#5 0#16 (by decide) (by simp; try decide))
    (iWord_meets 0#5 0#5 0#16 (by decide) (by simp; try decide))⟩

theorem RowAccepts.blez (rs : Reg) (offset : Half) : RowAccepts.Statement (.blez rs offset) := fun _ h =>
  ⟨⟨"BLEZ", 0x18000000#32, 0xFC000000#32, 0xFC1F0000#32, .always⟩, by decide, rfl, accepts_of h
    (iWord_meets 0#5 0#5 0#16 (by decide) (by simp; try decide))
    (iWord_meets 0#5 31#5 0#16 (by decide) (by simp; try decide))⟩

theorem RowAccepts.bgtz (rs : Reg) (offset : Half) : RowAccepts.Statement (.bgtz rs offset) := fun _ h =>
  ⟨⟨"BGTZ", 0x1C000000#32, 0xFC000000#32, 0xFC1F0000#32, .always⟩, by decide, rfl, accepts_of h
    (iWord_meets 0#5 0#5 0#16 (by decide) (by simp; try decide))
    (iWord_meets 0#5 31#5 0#16 (by decide) (by simp; try decide))⟩

theorem RowAccepts.bltz (rs : Reg) (offset : Half) : RowAccepts.Statement (.bltz rs offset) := fun _ h =>
  ⟨⟨"BLTZ", 0x04000000#32, 0xFC1F0000#32, 0xFC1F0000#32, .always⟩, by decide, rfl, accepts_of h
    (iWord_meets 0#5 31#5 0#16 (by decide) (by simp; try decide))
    (iWord_meets 0#5 31#5 0#16 (by decide) (by simp; try decide))⟩

theorem RowAccepts.bgez (rs : Reg) (offset : Half) : RowAccepts.Statement (.bgez rs offset) := fun _ h =>
  ⟨⟨"BGEZ", 0x04010000#32, 0xFC1F0000#32, 0xFC1F0000#32, .always⟩, by decide, rfl, accepts_of h
    (iWord_meets 0#5 31#5 0#16 (by decide) (by simp; try decide))
    (iWord_meets 0#5 31#5 0#16 (by decide) (by simp; try decide))⟩

theorem RowAccepts.bltzal (rs : Reg) (offset : Half) : RowAccepts.Statement (.bltzal rs offset) := fun _ h =>
  ⟨⟨"BLTZAL", 0x04100000#32, 0xFC1F0000#32, 0xFC1F0000#32, .always⟩, by decide, rfl, accepts_of h
    (iWord_meets 0#5 31#5 0#16 (by decide) (by simp; try decide))
    (iWord_meets 0#5 31#5 0#16 (by decide) (by simp; try decide))⟩

theorem RowAccepts.bgezal (rs : Reg) (offset : Half) : RowAccepts.Statement (.bgezal rs offset) := fun _ h =>
  ⟨⟨"BGEZAL", 0x04110000#32, 0xFC1F0000#32, 0xFC1F0000#32, .always⟩, by decide, rfl, accepts_of h
    (iWord_meets 0#5 31#5 0#16 (by decide) (by simp; try decide))
    (iWord_meets 0#5 31#5 0#16 (by decide) (by simp; try decide))⟩

theorem RowAccepts.j (target : BitVec 26) : RowAccepts.Statement (.j target) := fun _ h =>
  ⟨⟨"J", 0x08000000#32, 0xFC000000#32, 0xFC000000#32, .always⟩, by decide, rfl, accepts_of h
    (jWord_meets (by decide) (by decide))
    (jWord_meets (by decide) (by decide))⟩

theorem RowAccepts.jal (target : BitVec 26) : RowAccepts.Statement (.jal target) := fun _ h =>
  ⟨⟨"JAL", 0x0C000000#32, 0xFC000000#32, 0xFC000000#32, .always⟩, by decide, rfl, accepts_of h
    (jWord_meets (by decide) (by decide))
    (jWord_meets (by decide) (by decide))⟩

theorem RowAccepts.jr (rs : Reg) : RowAccepts.Statement (.jr rs) := fun _ h =>
  ⟨⟨"JR", 0x00000008#32, 0xFC0007FF#32, 0xFC1FFFFF#32, .always⟩, by decide, rfl, accepts_of h
    (rWord_meets 0#5 0#5 0#5 31#5 (by decide) (by simp; try decide))
    (rWord_meets 0#5 31#5 31#5 31#5 (by decide) (by simp; try decide))⟩

theorem RowAccepts.jalr (rd rs : Reg) : RowAccepts.Statement (.jalr rd rs) := fun _ h =>
  ⟨⟨"JALR", 0x00000009#32, 0xFC0007FF#32, 0xFC1F07FF#32, .always⟩, by decide, rfl, accepts_of h
    (rWord_meets 0#5 0#5 0#5 31#5 (by decide) (by simp; try decide))
    (rWord_meets 0#5 31#5 0#5 31#5 (by decide) (by simp; try decide))⟩

theorem RowAccepts.lb (rt : Reg) (offset : Half) (base : Reg) : RowAccepts.Statement (.lb rt offset base) := fun _ h =>
  ⟨⟨"LB", 0x80000000#32, 0xFC000000#32, 0xFC000000#32, .always⟩, by decide, rfl, accepts_of h
    (iWord_meets 0#5 0#5 0#16 (by decide) (by simp; try decide))
    (iWord_meets 0#5 0#5 0#16 (by decide) (by simp; try decide))⟩

theorem RowAccepts.lbu (rt : Reg) (offset : Half) (base : Reg) : RowAccepts.Statement (.lbu rt offset base) := fun _ h =>
  ⟨⟨"LBU", 0x90000000#32, 0xFC000000#32, 0xFC000000#32, .always⟩, by decide, rfl, accepts_of h
    (iWord_meets 0#5 0#5 0#16 (by decide) (by simp; try decide))
    (iWord_meets 0#5 0#5 0#16 (by decide) (by simp; try decide))⟩

theorem RowAccepts.lh (rt : Reg) (offset : Half) (base : Reg) : RowAccepts.Statement (.lh rt offset base) := fun _ h =>
  ⟨⟨"LH", 0x84000000#32, 0xFC000000#32, 0xFC000000#32, .always⟩, by decide, rfl, accepts_of h
    (iWord_meets 0#5 0#5 0#16 (by decide) (by simp; try decide))
    (iWord_meets 0#5 0#5 0#16 (by decide) (by simp; try decide))⟩

theorem RowAccepts.lhu (rt : Reg) (offset : Half) (base : Reg) : RowAccepts.Statement (.lhu rt offset base) := fun _ h =>
  ⟨⟨"LHU", 0x94000000#32, 0xFC000000#32, 0xFC000000#32, .always⟩, by decide, rfl, accepts_of h
    (iWord_meets 0#5 0#5 0#16 (by decide) (by simp; try decide))
    (iWord_meets 0#5 0#5 0#16 (by decide) (by simp; try decide))⟩

theorem RowAccepts.lw (rt : Reg) (offset : Half) (base : Reg) : RowAccepts.Statement (.lw rt offset base) := fun _ h =>
  ⟨⟨"LW", 0x8C000000#32, 0xFC000000#32, 0xFC000000#32, .always⟩, by decide, rfl, accepts_of h
    (iWord_meets 0#5 0#5 0#16 (by decide) (by simp; try decide))
    (iWord_meets 0#5 0#5 0#16 (by decide) (by simp; try decide))⟩

theorem RowAccepts.lwl (rt : Reg) (offset : Half) (base : Reg) : RowAccepts.Statement (.lwl rt offset base) := fun _ h =>
  ⟨⟨"LWL", 0x88000000#32, 0xFC000000#32, 0xFC000000#32, .always⟩, by decide, rfl, accepts_of h
    (iWord_meets 0#5 0#5 0#16 (by decide) (by simp; try decide))
    (iWord_meets 0#5 0#5 0#16 (by decide) (by simp; try decide))⟩

theorem RowAccepts.lwr (rt : Reg) (offset : Half) (base : Reg) : RowAccepts.Statement (.lwr rt offset base) := fun _ h =>
  ⟨⟨"LWR", 0x98000000#32, 0xFC000000#32, 0xFC000000#32, .always⟩, by decide, rfl, accepts_of h
    (iWord_meets 0#5 0#5 0#16 (by decide) (by simp; try decide))
    (iWord_meets 0#5 0#5 0#16 (by decide) (by simp; try decide))⟩

theorem RowAccepts.sb (rt : Reg) (offset : Half) (base : Reg) : RowAccepts.Statement (.sb rt offset base) := fun _ h =>
  ⟨⟨"SB", 0xA0000000#32, 0xFC000000#32, 0xFC000000#32, .always⟩, by decide, rfl, accepts_of h
    (iWord_meets 0#5 0#5 0#16 (by decide) (by simp; try decide))
    (iWord_meets 0#5 0#5 0#16 (by decide) (by simp; try decide))⟩

theorem RowAccepts.sh (rt : Reg) (offset : Half) (base : Reg) : RowAccepts.Statement (.sh rt offset base) := fun _ h =>
  ⟨⟨"SH", 0xA4000000#32, 0xFC000000#32, 0xFC000000#32, .always⟩, by decide, rfl, accepts_of h
    (iWord_meets 0#5 0#5 0#16 (by decide) (by simp; try decide))
    (iWord_meets 0#5 0#5 0#16 (by decide) (by simp; try decide))⟩

theorem RowAccepts.sw (rt : Reg) (offset : Half) (base : Reg) : RowAccepts.Statement (.sw rt offset base) := fun _ h =>
  ⟨⟨"SW", 0xAC000000#32, 0xFC000000#32, 0xFC000000#32, .always⟩, by decide, rfl, accepts_of h
    (iWord_meets 0#5 0#5 0#16 (by decide) (by simp; try decide))
    (iWord_meets 0#5 0#5 0#16 (by decide) (by simp; try decide))⟩

end Sys2Proof.Laws
end

