-- ==== Sys2Proof/Tests/Slice0.lean ====
section
/-! SUPPORT. Tests, each with its expected values from the spec (the rules' own words and examples, and
spec/95_test_vectors.md), and one witness for the hypotheses of every statement that has any. -/

namespace Sys2Proof.Tests

open Sys2Proof Sys2Proof.Machine Sys2Proof.Claims

/-! ## Helpers -/

/-- A memory of 0x200 bytes, 0 but for `w` at address 0 and 0x8899AABB at 0x100 (spec/95 section L2). -/
def probeMemory (w : Word) : Memory :=
  (({ size := 0x200, fill := some 0x00#8, cells := [] } : Memory).setBytes 0x100 (encodeWord 0x8899AABB#32)).setBytes 0
    (encodeWord w)

/-- The pre-state of spec/95 section L2, with `w` at `pc` = 0 and the registers of `seed` set. -/
def probe (w : Word) (seed : List (Reg × Word)) : State :=
  seed.foldl (fun s x => s.setReg x.1 x.2)
    { zeroState defaultParams (probeMemory w) with nextPc := 4#32, hi := 0x11111111#32, lo := 0x22222222#32 }

/-- The same with `w` at `a` and `pc` there. -/
def probeAt (a w : Word) (seed : List (Reg × Word)) : State :=
  let s := probe 0#32 seed
  { s with pc := a, nextPc := a + 4#32, mem := s.mem.setBytes a.toNat (encodeWord w) }

/-- `s` under the parameters `p`. -/
def withParams (s : State) (p : Params) : State := { s with params := p }

/-- The state an outcome goes on to; `s` where it does not go on. -/
def nextOf (s : State) (o : Outcome) : State :=
  match o with
  | .next t => t
  | .fault _ => s
  | .refused _ => s

/-- The outcome is a next state. -/
def isNext (o : Outcome) : Bool :=
  match o with
  | .next _ => true
  | .fault _ => false
  | .refused _ => false

/-- The state after one step. -/
def after (s : State) : State := nextOf s (step s)

/-- The state after `exec i`. -/
def done (i : Instr) (s : State) : State := nextOf s (exec i s)

theorem next_of_isNext {s : State} {o : Outcome} (h : isNext o = true) : o = .next (nextOf s o) := by
  cases o <;> simp_all [isNext, nextOf]

/-- One step ends with `e` and leaves all of the state but the records as it was. -/
def unchangedBut (e : Status) (s : State) : Bool :=
  decide ({ after s with requests := s.requests } = { s with status := some e })

/-- The memory word at `a`. -/
def wordOf (s : State) (a : Nat) : Word := decodeWord (s.mem.bytesAt a)

/-- The decoder rejects the word. -/
def rejects (p : Params) (w : Word) : Bool :=
  match decode p w with
  | .ok _ => false
  | .error _ => true

/-! ## WellFormed: each Tier D row is refused without its parameter (R114) -/

/-- Every extension off. -/
def bare : Params := { defaultParams with extHiloMoves := false, extVarShifts := false }

/-- Every reserved field checked. -/
def strict : Params := { defaultParams with strictReservedFields := true }

theorem test_wf_refuses_sllv : (Instr.sllv 3 2 1).wf bare = false := by decide
theorem test_wf_refuses_srlv : (Instr.srlv 3 2 1).wf bare = false := by decide
theorem test_wf_refuses_srav : (Instr.srav 3 2 1).wf bare = false := by decide
theorem test_wf_refuses_mfhi : (Instr.mfhi 3).wf bare = false := by decide
theorem test_wf_refuses_mflo : (Instr.mflo 3).wf bare = false := by decide
theorem test_wf_refuses_mthi : (Instr.mthi 1).wf bare = false := by decide
theorem test_wf_refuses_mtlo : (Instr.mtlo 1).wf bare = false := by decide

/-! ## Decoding: a word of every row, as the rules' examples and spec/95 give it -/

theorem test_decode_alu :
    decode defaultParams 0x00221820#32 = .ok (.add 3 1 2) ∧
    decode defaultParams 0x00221821#32 = .ok (.addu 3 1 2) ∧
    decode defaultParams 0x00221822#32 = .ok (.sub 3 1 2) ∧
    decode defaultParams 0x00221823#32 = .ok (.subu 3 1 2) ∧
    decode defaultParams 0x00221824#32 = .ok (.and 3 1 2) ∧
    decode defaultParams 0x00221825#32 = .ok (.or 3 1 2) ∧
    decode defaultParams 0x00221826#32 = .ok (.xor 3 1 2) ∧
    decode defaultParams 0x0022182A#32 = .ok (.slt 3 1 2) ∧
    decode defaultParams 0x0022182B#32 = .ok (.sltu 3 1 2) := by decide

theorem test_decode_shift :
    decode defaultParams 0x00021FC0#32 = .ok (.sll 3 2 31) ∧
    decode defaultParams 0x00021902#32 = .ok (.srl 3 2 4) ∧
    decode defaultParams 0x00021903#32 = .ok (.sra 3 2 4) ∧
    decode defaultParams 0x00221804#32 = .ok (.sllv 3 2 1) ∧
    decode defaultParams 0x00221806#32 = .ok (.srlv 3 2 1) ∧
    decode defaultParams 0x00221807#32 = .ok (.srav 3 2 1) := by decide

theorem test_decode_immediate :
    decode defaultParams 0x20230001#32 = .ok (.addi 3 1 0x0001#16) ∧
    decode defaultParams 0x24230001#32 = .ok (.addiu 3 1 0x0001#16) ∧
    decode defaultParams 0x28238000#32 = .ok (.slti 3 1 0x8000#16) ∧
    decode defaultParams 0x2C23FFFF#32 = .ok (.sltiu 3 1 0xFFFF#16) ∧
    decode defaultParams 0x3023FFFF#32 = .ok (.andi 3 1 0xFFFF#16) ∧
    decode defaultParams 0x34238000#32 = .ok (.ori 3 1 0x8000#16) ∧
    decode defaultParams 0x3823FFFF#32 = .ok (.xori 3 1 0xFFFF#16) ∧
    decode defaultParams 0x3C038000#32 = .ok (.lui 3 0x8000#16) := by decide

theorem test_decode_muldiv :
    decode defaultParams 0x00220018#32 = .ok (.mult 1 2) ∧
    decode defaultParams 0x00220019#32 = .ok (.multu 1 2) ∧
    decode defaultParams 0x0022001A#32 = .ok (.div 1 2) ∧
    decode defaultParams 0x0022001B#32 = .ok (.divu 1 2) ∧
    decode defaultParams 0x00001810#32 = .ok (.mfhi 3) ∧
    decode defaultParams 0x00001812#32 = .ok (.mflo 3) ∧
    decode defaultParams 0x00200011#32 = .ok (.mthi 1) ∧
    decode defaultParams 0x00200013#32 = .ok (.mtlo 1) := by decide

theorem test_decode_branch :
    decode defaultParams 0x10220003#32 = .ok (.beq 1 2 0x0003#16) ∧
    decode defaultParams 0x1422FFFE#32 = .ok (.bne 1 2 0xFFFE#16) ∧
    decode defaultParams 0x18200003#32 = .ok (.blez 1 0x0003#16) ∧
    decode defaultParams 0x1C200003#32 = .ok (.bgtz 1 0x0003#16) ∧
    decode defaultParams 0x04200003#32 = .ok (.bltz 1 0x0003#16) ∧
    decode defaultParams 0x04210003#32 = .ok (.bgez 1 0x0003#16) ∧
    decode defaultParams 0x04300003#32 = .ok (.bltzal 1 0x0003#16) ∧
    decode defaultParams 0x04310003#32 = .ok (.bgezal 1 0x0003#16) := by decide

theorem test_decode_jump :
    decode defaultParams 0x08000040#32 = .ok (.j 0x40#26) ∧
    decode defaultParams 0x0C000040#32 = .ok (.jal 0x40#26) ∧
    decode defaultParams 0x00200008#32 = .ok (.jr 1) ∧
    decode defaultParams 0x00201809#32 = .ok (.jalr 3 1) := by decide

theorem test_decode_load :
    decode defaultParams 0x80220000#32 = .ok (.lb 2 0x0000#16 1) ∧
    decode defaultParams 0x90220003#32 = .ok (.lbu 2 0x0003#16 1) ∧
    decode defaultParams 0x84220000#32 = .ok (.lh 2 0x0000#16 1) ∧
    decode defaultParams 0x94220000#32 = .ok (.lhu 2 0x0000#16 1) ∧
    decode defaultParams 0x8C220000#32 = .ok (.lw 2 0x0000#16 1) ∧
    decode defaultParams 0x88220000#32 = .ok (.lwl 2 0x0000#16 1) ∧
    decode defaultParams 0x98220000#32 = .ok (.lwr 2 0x0000#16 1) := by decide

theorem test_decode_store :
    decode defaultParams 0xA0220000#32 = .ok (.sb 2 0x0000#16 1) ∧
    decode defaultParams 0xA4220000#32 = .ok (.sh 2 0x0000#16 1) ∧
    decode defaultParams 0xAC220000#32 = .ok (.sw 2 0x0000#16 1) := by decide

/-- Section L2-DEC of spec/95. -/
theorem test_illegal_words :
    ([0x00221860#32, 0x00221844#32, 0x00221827#32, 0x0000000C#32, 0x0000000D#32, 0xFC000000#32, 0x04220003#32,
      0x40000000#32, 0xA8220000#32].all (rejects defaultParams)) = true ∧
    rejects bare 0x00221804#32 = true ∧ rejects bare 0x00001810#32 = true ∧ rejects strict 0x00201818#32 = true ∧
    decode defaultParams 0x00201818#32 = .ok (.mult 1 0) := by decide

/-- R125: the all-zero word is the NOP. -/
theorem test_nop : decode defaultParams 0x00000000#32 = .ok (.sll 0 0 0) := by decide

theorem test_table_word : decodeTableWord 32 0x0C000040 = some (.jal 0x40) := by decide

/-! ## One step of each instruction (spec/95 section L2) -/

theorem test_add_a :
    unchangedBut .arithmeticOverflow (probe 0x00221820#32 [(1, 0x7FFFFFFF#32), (2, 0x1#32)]) = true := by decide

theorem test_add_b :
    (let t := after (probe 0x00221820#32 [(1, 0x1#32), (2, 0x1#32)]);
      (t.status, t.pc, t.nextPc, t.getReg 3)) =
      (some .success, 0x4#32, 0x8#32, 0x00000002#32) := by decide

theorem test_addu_a :
    (let t := after (probe 0x00221821#32 [(1, 0x7FFFFFFF#32), (2, 0x1#32)]);
      (t.status, t.pc, t.nextPc, t.getReg 3)) =
      (some .success, 0x4#32, 0x8#32, 0x80000000#32) := by decide

theorem test_sub_a :
    unchangedBut .arithmeticOverflow (probe 0x00221822#32 [(1, 0x0#32), (2, 0x80000000#32)]) = true := by decide

theorem test_sub_b :
    (let t := after (probe 0x00221822#32 [(1, 0xFFFFFFFF#32), (2, 0x80000000#32)]);
      (t.status, t.pc, t.nextPc, t.getReg 3)) =
      (some .success, 0x4#32, 0x8#32, 0x7FFFFFFF#32) := by decide

theorem test_subu_a :
    (let t := after (probe 0x00221823#32 [(1, 0x0#32), (2, 0x1#32)]);
      (t.status, t.pc, t.nextPc, t.getReg 3)) =
      (some .success, 0x4#32, 0x8#32, 0xFFFFFFFF#32) := by decide

theorem test_and_a :
    (let t := after (probe 0x00221824#32 [(1, 0xF0F0F0F0#32), (2, 0xFF00FF00#32)]);
      (t.status, t.pc, t.nextPc, t.getReg 3)) =
      (some .success, 0x4#32, 0x8#32, 0xF000F000#32) := by decide

theorem test_or_a :
    (let t := after (probe 0x00221825#32 [(1, 0xF0F0F0F0#32), (2, 0xFF00FF00#32)]);
      (t.status, t.pc, t.nextPc, t.getReg 3)) =
      (some .success, 0x4#32, 0x8#32, 0xFFF0FFF0#32) := by decide

theorem test_xor_a :
    (let t := after (probe 0x00221826#32 [(1, 0xF0F0F0F0#32), (2, 0xFF00FF00#32)]);
      (t.status, t.pc, t.nextPc, t.getReg 3)) =
      (some .success, 0x4#32, 0x8#32, 0x0FF00FF0#32) := by decide

theorem test_slt_a :
    (let t := after (probe 0x0022182A#32 [(1, 0xFFFFFFFF#32), (2, 0x1#32)]);
      (t.status, t.pc, t.nextPc, t.getReg 3)) =
      (some .success, 0x4#32, 0x8#32, 0x00000001#32) := by decide

theorem test_slt_b :
    (let t := after (probe 0x0021182A#32 [(1, 0x7#32)]);
      (t.status, t.pc, t.nextPc, t.getReg 3)) =
      (some .success, 0x4#32, 0x8#32, 0x00000000#32) := by decide

theorem test_sltu_a :
    (let t := after (probe 0x0022182B#32 [(1, 0xFFFFFFFF#32), (2, 0x1#32)]);
      (t.status, t.pc, t.nextPc, t.getReg 3)) =
      (some .success, 0x4#32, 0x8#32, 0x00000000#32) := by decide

theorem test_sll_a :
    (let t := after (probe 0x00021FC0#32 [(2, 0x1#32)]);
      (t.status, t.pc, t.nextPc, t.getReg 3)) =
      (some .success, 0x4#32, 0x8#32, 0x80000000#32) := by decide

theorem test_srl_a :
    (let t := after (probe 0x00021902#32 [(2, 0x80000000#32)]);
      (t.status, t.pc, t.nextPc, t.getReg 3)) =
      (some .success, 0x4#32, 0x8#32, 0x08000000#32) := by decide

theorem test_sra_a :
    (let t := after (probe 0x00021903#32 [(2, 0x80000000#32)]);
      (t.status, t.pc, t.nextPc, t.getReg 3)) =
      (some .success, 0x4#32, 0x8#32, 0xF8000000#32) := by decide

theorem test_sra_b :
    (let t := after (probe 0x00021FC3#32 [(2, 0x7FFFFFFF#32)]);
      (t.status, t.pc, t.nextPc, t.getReg 3)) =
      (some .success, 0x4#32, 0x8#32, 0x00000000#32) := by decide

theorem test_sllv_a :
    (let t := after (probe 0x00221804#32 [(1, 0x20#32), (2, 0x12345678#32)]);
      (t.status, t.pc, t.nextPc, t.getReg 3)) =
      (some .success, 0x4#32, 0x8#32, 0x12345678#32) := by decide

theorem test_sllv_b :
    unchangedBut .invalidInstruction (withParams (probe 0x00221804#32 [(1, 0x1#32), (2, 0x2#32)]) bare) = true := by decide

theorem test_srlv_a :
    (let t := after (probe 0x00221806#32 [(1, 0x1F#32), (2, 0x80000000#32)]);
      (t.status, t.pc, t.nextPc, t.getReg 3)) =
      (some .success, 0x4#32, 0x8#32, 0x00000001#32) := by decide

theorem test_srav_a :
    (let t := after (probe 0x00221807#32 [(1, 0x3F#32), (2, 0x80000000#32)]);
      (t.status, t.pc, t.nextPc, t.getReg 3)) =
      (some .success, 0x4#32, 0x8#32, 0xFFFFFFFF#32) := by decide

theorem test_addi_a :
    unchangedBut .arithmeticOverflow (probe 0x2023FFFF#32 [(1, 0x80000000#32)]) = true := by decide

theorem test_addi_b :
    (let t := after (probe 0x2023FFFF#32 [(1, 0x0#32)]);
      (t.status, t.pc, t.nextPc, t.getReg 3)) =
      (some .success, 0x4#32, 0x8#32, 0xFFFFFFFF#32) := by decide

theorem test_addiu_a :
    (let t := after (probe 0x24230001#32 [(1, 0x7FFFFFFF#32)]);
      (t.status, t.pc, t.nextPc, t.getReg 3)) =
      (some .success, 0x4#32, 0x8#32, 0x80000000#32) := by decide

theorem test_slti_a :
    (let t := after (probe 0x28238000#32 [(1, 0x0#32)]);
      (t.status, t.pc, t.nextPc, t.getReg 3)) =
      (some .success, 0x4#32, 0x8#32, 0x00000000#32) := by decide

theorem test_sltiu_a :
    (let t := after (probe 0x2C23FFFF#32 [(1, 0x0#32)]);
      (t.status, t.pc, t.nextPc, t.getReg 3)) =
      (some .success, 0x4#32, 0x8#32, 0x00000001#32) := by decide

theorem test_sltiu_b :
    (let t := after (probe 0x2C23FFFF#32 [(1, 0xFFFFFFFF#32)]);
      (t.status, t.pc, t.nextPc, t.getReg 3)) =
      (some .success, 0x4#32, 0x8#32, 0x00000000#32) := by decide

theorem test_andi_a :
    (let t := after (probe 0x3023FFFF#32 [(1, 0xFFFFFFFF#32)]);
      (t.status, t.pc, t.nextPc, t.getReg 3)) =
      (some .success, 0x4#32, 0x8#32, 0x0000FFFF#32) := by decide

theorem test_ori_a :
    (let t := after (probe 0x34238000#32 [(1, 0x0#32)]);
      (t.status, t.pc, t.nextPc, t.getReg 3)) =
      (some .success, 0x4#32, 0x8#32, 0x00008000#32) := by decide

theorem test_xori_a :
    (let t := after (probe 0x3823FFFF#32 [(1, 0x12345678#32)]);
      (t.status, t.pc, t.nextPc, t.getReg 3)) =
      (some .success, 0x4#32, 0x8#32, 0x1234A987#32) := by decide

theorem test_lui_a :
    (let t := after (probe 0x3C038000#32 []);
      (t.status, t.pc, t.nextPc, t.getReg 3)) =
      (some .success, 0x4#32, 0x8#32, 0x80000000#32) := by decide

theorem test_lui_b :
    (let t := after (probe 0x3C001234#32 []);
      (t.status, t.pc, t.nextPc, t.getReg 0)) =
      (some .success, 0x4#32, 0x8#32, 0x00000000#32) := by decide

theorem test_mult_a :
    (let t := after (probe 0x00220018#32 [(1, 0xFFFFFFFF#32), (2, 0xFFFFFFFF#32)]);
      (t.status, t.pc, t.nextPc, t.hi, t.lo)) =
      (some .success, 0x4#32, 0x8#32, 0x00000000#32, 0x00000001#32) := by decide

theorem test_mult_b :
    unchangedBut .invalidInstruction (withParams (probe 0x00201818#32 [(1, 0x1#32)]) strict) = true := by decide

theorem test_multu_a :
    (let t := after (probe 0x00220019#32 [(1, 0xFFFFFFFF#32), (2, 0x2#32)]);
      (t.status, t.pc, t.nextPc, t.hi, t.lo)) =
      (some .success, 0x4#32, 0x8#32, 0x00000001#32, 0xFFFFFFFE#32) := by decide

theorem test_div_a :
    (let t := after (probe 0x0022001A#32 [(1, 0xFFFFFFF9#32), (2, 0x2#32)]);
      (t.status, t.pc, t.nextPc, t.hi, t.lo)) =
      (some .success, 0x4#32, 0x8#32, 0xFFFFFFFF#32, 0xFFFFFFFD#32) := by decide

theorem test_div_b :
    (let t := after (probe 0x0022001A#32 [(1, 0x80000000#32), (2, 0xFFFFFFFF#32)]);
      (t.status, t.pc, t.nextPc, t.hi, t.lo)) =
      (some .success, 0x4#32, 0x8#32, 0x00000000#32, 0x80000000#32) := by decide

theorem test_divu_a :
    (let t := after (probe 0x0022001B#32 [(1, 0xFFFFFFFF#32), (2, 0x2#32)]);
      (t.status, t.pc, t.nextPc, t.hi, t.lo)) =
      (some .success, 0x4#32, 0x8#32, 0x00000001#32, 0x7FFFFFFF#32) := by decide

theorem test_divu_b :
    (let t := after (probe 0x0022001B#32 [(1, 0x7#32), (2, 0x0#32)]);
      (t.status, t.pc, t.nextPc, t.hi, t.lo)) =
      (some .invalidInstruction, 0x0#32, 0x4#32, 0x00000000#32, 0x00000000#32) := by decide

theorem test_mfhi_a :
    (let t := after (probe 0x00001810#32 []);
      (t.status, t.pc, t.nextPc, t.getReg 3)) =
      (some .success, 0x4#32, 0x8#32, 0x11111111#32) := by decide

theorem test_mfhi_b :
    unchangedBut .invalidInstruction (withParams (probe 0x00001810#32 []) bare) = true := by decide

theorem test_mflo_a :
    (let t := after (probe 0x00000012#32 []);
      (t.status, t.pc, t.nextPc, t.getReg 0)) =
      (some .success, 0x4#32, 0x8#32, 0x00000000#32) := by decide

theorem test_mflo_b :
    (let t := after (probe 0x00001812#32 []);
      (t.status, t.pc, t.nextPc, t.getReg 3)) =
      (some .success, 0x4#32, 0x8#32, 0x22222222#32) := by decide

theorem test_mthi_a :
    (let t := after (probe 0x00200011#32 [(1, 0xABCD#32)]);
      (t.status, t.pc, t.nextPc, t.hi)) =
      (some .success, 0x4#32, 0x8#32, 0x0000ABCD#32) := by decide

theorem test_mtlo_a :
    (let t := after (probe 0x00200013#32 [(1, 0x1234#32)]);
      (t.status, t.pc, t.nextPc, t.lo)) =
      (some .success, 0x4#32, 0x8#32, 0x00001234#32) := by decide

theorem test_beq_a :
    (let t := after (probe 0x10220003#32 [(1, 0x5#32), (2, 0x6#32)]);
      (t.status, t.pc, t.nextPc)) =
      (some .success, 0x4#32, 0x8#32) := by decide

theorem test_beq_b :
    (let t := after (probeAt 0x40#32 0x1000FFFF#32 []);
      (t.status, t.pc, t.nextPc)) =
      (some .success, 0x44#32, 0x40#32) := by decide

theorem test_bne_a :
    (let t := after (probeAt 0x40#32 0x1422FFFE#32 [(1, 0x5#32), (2, 0x6#32)]);
      (t.status, t.pc, t.nextPc)) =
      (some .success, 0x44#32, 0x3C#32) := by decide

theorem test_blez_a :
    (let t := after (probe 0x18200003#32 [(1, 0x0#32)]);
      (t.status, t.pc, t.nextPc)) =
      (some .success, 0x4#32, 0x10#32) := by decide

theorem test_blez_b :
    (let t := after (probe 0x18200003#32 [(1, 0x1#32)]);
      (t.status, t.pc, t.nextPc)) =
      (some .success, 0x4#32, 0x8#32) := by decide

theorem test_bgtz_a :
    (let t := after (probe 0x1C200003#32 [(1, 0x0#32)]);
      (t.status, t.pc, t.nextPc)) =
      (some .success, 0x4#32, 0x8#32) := by decide

theorem test_bgtz_b :
    (let t := after (probe 0x1C200003#32 [(1, 0x7FFFFFFF#32)]);
      (t.status, t.pc, t.nextPc)) =
      (some .success, 0x4#32, 0x10#32) := by decide

theorem test_bltz_a :
    (let t := after (probe 0x04200003#32 [(1, 0x80000000#32)]);
      (t.status, t.pc, t.nextPc)) =
      (some .success, 0x4#32, 0x10#32) := by decide

theorem test_bltz_b :
    (let t := after (probe 0x04200003#32 [(1, 0x0#32)]);
      (t.status, t.pc, t.nextPc)) =
      (some .success, 0x4#32, 0x8#32) := by decide

theorem test_bgez_a :
    (let t := after (probe 0x04210003#32 [(1, 0x0#32)]);
      (t.status, t.pc, t.nextPc)) =
      (some .success, 0x4#32, 0x10#32) := by decide

theorem test_bgez_b :
    (let t := after (probe 0x04210003#32 [(1, 0xFFFFFFFF#32)]);
      (t.status, t.pc, t.nextPc)) =
      (some .success, 0x4#32, 0x8#32) := by decide

theorem test_bltzal_a :
    (let t := after (probe 0x04300003#32 [(1, 0x5#32)]);
      (t.status, t.pc, t.nextPc, t.getReg 31)) =
      (some .success, 0x4#32, 0x8#32, 0x00000008#32) := by decide

theorem test_bltzal_b :
    (let t := after (probe 0x04300003#32 [(1, 0xFFFFFFFF#32)]);
      (t.status, t.pc, t.nextPc, t.getReg 31)) =
      (some .success, 0x4#32, 0x10#32, 0x00000008#32) := by decide

theorem test_bgezal_a :
    (let t := after (probe 0x04310003#32 [(1, 0x0#32)]);
      (t.status, t.pc, t.nextPc, t.getReg 31)) =
      (some .success, 0x4#32, 0x10#32, 0x00000008#32) := by decide

theorem test_bgezal_b :
    (let t := after (probe 0x07F10003#32 [(31, 0xFFFFFFFF#32)]);
      (t.status, t.pc, t.nextPc, t.getReg 31)) =
      (some .success, 0x4#32, 0x8#32, 0x00000008#32) := by decide

theorem test_j_a :
    (let t := after (probe 0x08000040#32 []);
      (t.status, t.pc, t.nextPc)) =
      (some .success, 0x4#32, 0x100#32) := by decide

theorem test_jal_a :
    (let t := after (probe 0x0C000040#32 []);
      (t.status, t.pc, t.nextPc, t.getReg 31)) =
      (some .success, 0x4#32, 0x100#32, 0x00000008#32) := by decide

theorem test_jr_a :
    (let t := after (probe 0x00200008#32 [(1, 0x200#32)]);
      (t.status, t.pc, t.nextPc)) =
      (some .success, 0x4#32, 0x200#32) := by decide

theorem test_jr_b :
    (let t := after (probe 0x00200008#32 [(1, 0x102#32)]);
      (t.status, t.pc, t.nextPc)) =
      (some .success, 0x4#32, 0x102#32) := by decide

theorem test_jalr_a :
    (let t := after (probe 0x00200809#32 [(1, 0x200#32)]);
      (t.status, t.pc, t.nextPc, t.getReg 1)) =
      (some .success, 0x4#32, 0x200#32, 0x00000008#32) := by decide

theorem test_jalr_b :
    (let t := after (probe 0x00200009#32 [(1, 0x200#32)]);
      (t.status, t.pc, t.nextPc, t.getReg 0)) =
      (some .success, 0x4#32, 0x200#32, 0x00000000#32) := by decide

theorem test_lb_a :
    (let t := after (probe 0x80220003#32 [(1, 0x100#32)]);
      (t.status, t.pc, t.nextPc, t.getReg 2)) =
      (some .success, 0x4#32, 0x8#32, 0x000000BB#32) := by decide

theorem test_lb_b :
    (let t := after (withParams (probe 0x80220000#32 [(1, 0x100#32)]) { defaultParams with lbSignExtend := true });
      (t.status, t.pc, t.nextPc, t.getReg 2)) =
      (some .success, 0x4#32, 0x8#32, 0xFFFFFF88#32) := by decide

theorem test_lbu_a :
    (let t := after (probe 0x90220003#32 [(1, 0x100#32)]);
      (t.status, t.pc, t.nextPc, t.getReg 2)) =
      (some .success, 0x4#32, 0x8#32, 0x000000BB#32) := by decide

theorem test_lh_a :
    unchangedBut .invalidAlignment (probe 0x84220001#32 [(1, 0x100#32)]) = true := by decide

theorem test_lh_b :
    (let t := after (probe 0x84220002#32 [(1, 0x100#32)]);
      (t.status, t.pc, t.nextPc, t.getReg 2)) =
      (some .success, 0x4#32, 0x8#32, 0xFFFFAABB#32) := by decide

theorem test_lhu_a :
    (let t := after (probe 0x94220000#32 [(1, 0x100#32)]);
      (t.status, t.pc, t.nextPc, t.getReg 2)) =
      (some .success, 0x4#32, 0x8#32, 0x00008899#32) := by decide

theorem test_lhu_b :
    unchangedBut .invalidAlignment (probe 0x94220003#32 [(1, 0x100#32)]) = true := by decide

theorem test_lw_a :
    (let t := after (probe 0x8C220003#32 [(1, 0x100#32)]);
      (t.status, t.pc, t.nextPc, t.getReg 2)) =
      (some .success, 0x4#32, 0x8#32, 0x8899AABB#32) := by decide

theorem test_lw_b :
    unchangedBut (.memoryError .memErr) (probe 0x8C220000#32 [(1, 0xFFFFFFFC#32), (2, 0x55#32)]) = true := by decide

theorem test_lwl_a :
    (let t := after (probe 0x88220001#32 [(1, 0x100#32), (2, 0x11223344#32)]);
      (t.status, t.pc, t.nextPc, t.getReg 2)) =
      (some .success, 0x4#32, 0x8#32, 0x99AABB44#32) := by decide

theorem test_lwl_b :
    (let t := after (probe 0x88220003#32 [(1, 0x100#32), (2, 0x11223344#32)]);
      (t.status, t.pc, t.nextPc, t.getReg 2)) =
      (some .success, 0x4#32, 0x8#32, 0xBB223344#32) := by decide

theorem test_lwr_a :
    (let t := after (probe 0x98220000#32 [(1, 0x100#32), (2, 0x11223344#32)]);
      (t.status, t.pc, t.nextPc, t.getReg 2)) =
      (some .success, 0x4#32, 0x8#32, 0x11223388#32) := by decide

theorem test_lwr_b :
    (let t := after (probe 0x98220002#32 [(1, 0x100#32), (2, 0x11223344#32)]);
      (t.status, t.pc, t.nextPc, t.getReg 2)) =
      (some .success, 0x4#32, 0x8#32, 0x118899AA#32) := by decide

theorem test_sb_a :
    (let t := after (probe 0xA0220001#32 [(1, 0x100#32), (2, 0xCAFEBABE#32)]);
      (t.status, t.pc, t.nextPc, wordOf t 0x100)) =
      (some .success, 0x4#32, 0x8#32, 0x88BEAABB#32) := by decide

theorem test_sb_b :
    unchangedBut (.memoryError .memErr) (probe 0xA0220000#32 [(1, 0x200#32), (2, 0xCAFEBABE#32)]) = true := by decide

theorem test_sh_a :
    (let t := after (probe 0xA4220002#32 [(1, 0x100#32), (2, 0xCAFEBABE#32)]);
      (t.status, t.pc, t.nextPc, wordOf t 0x100)) =
      (some .success, 0x4#32, 0x8#32, 0x8899BABE#32) := by decide

theorem test_sh_b :
    unchangedBut .invalidAlignment (probe 0xA4220003#32 [(1, 0x100#32), (2, 0xCAFEBABE#32)]) = true := by decide

theorem test_sw_a :
    (let t := after (probe 0xAC220002#32 [(1, 0x100#32), (2, 0xCAFEBABE#32)]);
      (t.status, t.pc, t.nextPc, wordOf t 0x100)) =
      (some .success, 0x4#32, 0x8#32, 0xCAFEBABE#32) := by decide

theorem test_sw_b :
    (let t := after (probe 0xAC220000#32 [(1, 0x1FC#32), (2, 0xCAFEBABE#32)]);
      (t.status, t.pc, t.nextPc, wordOf t 0x1FC)) =
      (some .success, 0x4#32, 0x8#32, 0xCAFEBABE#32) := by decide

/-! ## The sequencer and the host port (spec/95 section L2-SEQ) -/

/-- S1: from the bare reset the word at 0 runs and leaves `pc` at 0. -/
theorem test_bare_reset :
    (let t := after (createCore defaultParams (probeMemory 0x24420001#32)); (t.getReg 2, t.pc, t.nextPc)) =
      (1#32, 0#32, 4#32) := by decide

/-- S6: the fetch sends 0x102 to memory unaligned. -/
theorem test_unaligned_fetch :
    unchangedBut (.memoryError .memErr) (setPc (createCore defaultParams (probeMemory 0#32)) 0x102#32) = true := by decide

/-- S7. -/
theorem test_bad_index :
    hostCall (.setRegister 32 5#32) State.reset = (.invalidArgument, State.reset) ∧
      hostCall (.getRegister 40) State.reset = (.invalidArgument, State.reset) := by decide

/-- E18. -/
theorem test_register_zero :
    (hostCall (.getRegister 0) (hostCall (.setRegister 0 0x1234#32) State.reset).2).1 = .value 0#32 := by decide

/-- R65: no byte of the reset state's memory has a chosen value; a stored byte is read back. -/
theorem test_reset_memory_is_open :
    State.reset.mem.byteAt 0x1000 = Config.memInit 0x1000 ∧ (State.reset.mem.setByte 0x1000 0x00#8).byteAt 0x1000 = 0x00#8 :=
  ⟨rfl, by decide⟩

/-- From the reset state a placed instruction runs, whatever the other bytes are. -/
theorem test_placed_instruction :
    (let t := after (State.reset.withFetchWord 32 0xA0010003); (t.status, t.pc, t.nextPc)) =
      (some .success, 0#32, 4#32) := by decide

/-- R606. -/
theorem test_codes :
    [Status.success.code, Status.invalidInstruction.code, Status.invalidAlignment.code, Status.arithmeticOverflow.code,
      (Status.memoryError .memErr).code] = [0, 1, 2, 3, 4] ∧ HostReply.invalidArgument.code = some 5 := by decide

/-- E12. -/
theorem test_word_codec :
    encodeWord 0x8899AABB#32 = ⟨0x88#8, 0x99#8, 0xAA#8, 0xBB#8⟩ ∧
      decodeWord ⟨0x88#8, 0x99#8, 0xAA#8, 0xBB#8⟩ = 0x8899AABB#32 := by decide

/-! ## Assembler forms beside the hardware (R130, R131; the source columns of spec/95 section L3) -/

/-- P1: `beq $4, $0, done` at 0xC with `done` at 0x28, and `j loop` with `loop` at 0xC. -/
theorem test_labels :
    encode (.beq 4 0 (branchOffset 0xC#32 0x28#32)) = 0x10800006#32 ∧ branchLabel 0xC#32 6#16 = 0x28#32 ∧
      encode (.j (jumpField 0xC#32)) = 0x08000003#32 := by decide

/-- R131: the three forms of `li`, each at an end of its range. -/
theorem test_load_immediate :
    (Pseudo.li 3 0xFFFF8000#32).expand = [.addiu 3 0 0x8000#16] ∧ (Pseudo.li 3 0x8000#32).expand = [.ori 3 0 0x8000#16] ∧
      (Pseudo.li 3 0x10000#32).expand = [.lui 3 1#16, .ori 3 3 0#16] := by decide

/-! ## Witnesses: each hypothesis of a statement is met by a concrete state and operands -/

theorem stepped {s : State} (h : isNext (step s) = true) : step s = .next (after s) := next_of_isNext h

theorem executed {i : Instr} {s : State} (h : isNext (exec i s) = true) : exec i s = .next (done i s) := next_of_isNext h

/-- An ADD that succeeds. -/
def addState : State := probe 0x00221820#32 [(1, 1#32), (2, 1#32)]

/-- An ADD that overflows. -/
def overState : State := probe 0x00221820#32 [(1, 0x7FFFFFFF#32), (2, 1#32)]

/-- A state with `x1` = 0x100, `x2` = 0xCAFEBABE. -/
def dataState : State := probe 0#32 [(1, 0x100#32), (2, 0xCAFEBABE#32)]

/-- A state whose `x1` is the last aligned word of its memory. -/
def lastState : State := probe 0#32 [(1, 0x1FC#32), (2, 0xCAFEBABE#32)]

/-- A state whose `x1` is the first address past its memory. -/
def pastState : State := probe 0#32 [(1, 0x200#32)]

/-- DIVU by zero. -/
def divuState : State := probe 0x0022001B#32 [(1, 7#32)]

theorem witness_DecodeOfEncodeIsTheInstruction :
    (Instr.mtlo 31).wf defaultParams = true ∧ (Instr.sw 31 0xFFFF#16 31).wf bare = true := by decide

theorem witness_StrictDecodeLosesNoBit :
    strict.strictReservedFields = true ∧ decode strict 0x00001812#32 = .ok (.mflo 3) := by decide

theorem witness_DecodeMatchesExactlyOneTableRow :
    decode defaultParams 0x00001812#32 = .ok (.mflo 3) ∧ ∃ e, decode defaultParams 0xFFFFFFFF#32 = .error e :=
  ⟨by decide, _, rfl⟩

/-- A state that `RaisesInvalidInstruction` speaks about, with the word at the last address of its memory. -/
theorem witness_raises_invalid_instruction :
    (probeAt 0x1FC#32 0x00221860#32 []).params = defaultParams ∧
      (probeAt 0x1FC#32 0x00221860#32 []).mem.accepts (probeAt 0x1FC#32 0x00221860#32 []).pc = true ∧
      decodeWord ((probeAt 0x1FC#32 0x00221860#32 []).mem.bytesAt (probeAt 0x1FC#32 0x00221860#32 []).pc.toNat) =
        0x00221860#32 := by decide

theorem witness_NonzeroShamtIsRejected :
    [0x00221844#32, 0x00221FFF#32].all (fun w => opcodeOf w == 0#6 && functOf w != 0#6 && functOf w != 2#6 &&
      functOf w != 3#6 && shamtOf w != 0#5) = true := by decide

theorem witness_UnexecutedEncodingsAreRejected :
    ([0x40000000#32, 0x7C000000#32, 0x9C000000#32, 0xA8000000#32, 0xFC000000#32].all (fun w => !([0, 1, 2, 3, 4, 5, 6, 7,
      8, 9, 10, 11, 12, 13, 14, 15, 32, 33, 34, 35, 36, 37, 38, 40, 41, 43].contains (opcodeOf w).toNat))) = true ∧
    ([0x00000001#32, 0x0000000C#32, 0x00000027#32, 0x0000003F#32].all (fun w => opcodeOf w == 0#6 && !([0, 2, 3, 4, 6, 7,
      8, 9, 16, 17, 18, 19, 24, 25, 26, 27, 32, 33, 34, 35, 36, 37, 38, 42, 43].contains (functOf w).toNat))) = true ∧
    ([0x04020000#32, 0x040F0000#32, 0x04120000#32, 0x041F0000#32].all (fun w => opcodeOf w == 1#6 &&
      !([0, 1, 16, 17].contains (rtOf w).toNat))) = true := by decide

theorem witness_TierDRowsNeedTheirParameter :
    bare.extVarShifts = false ∧ bare.extHiloMoves = false ∧
    opcodeOf 0x00221804#32 = 0#6 ∧ (functOf 0x00221804#32).toNat ∈ [4, 6, 7] ∧
    opcodeOf 0x00200013#32 = 0#6 ∧ (functOf 0x00200013#32).toNat ∈ [16, 17, 18, 19] := by decide

/-- Both settings, and every field of the clauses nonzero at its least and its greatest value. -/
theorem witness_ReservedFieldsFollowTheStrictParameter :
    strict.strictReservedFields = true ∧ defaultParams.strictReservedFields = false ∧
      (1#5 : Reg) ≠ 0#5 ∧ (31#5 : Reg) ≠ 0#5 := by decide

theorem witness_StepRunsTheDecodedInstruction : FetchedInstr addState (.add 3 1 2) := by decide

theorem witness_FetchAndDecodeFailuresChangeNothing :
    (setPc addState 0x102#32).mem.accepts (setPc addState 0x102#32).pc = false ∧
    (setPc addState 0x200#32).mem.accepts (setPc addState 0x200#32).pc = false ∧
    (probeAt 0x1FC#32 0xFC000000#32 []).mem.accepts (probeAt 0x1FC#32 0xFC000000#32 []).pc = true ∧
    ∃ e, decodeBytes (probeAt 0x1FC#32 0xFC000000#32 []).params
      ((probeAt 0x1FC#32 0xFC000000#32 []).mem.bytesAt (probeAt 0x1FC#32 0xFC000000#32 []).pc.toNat) = .error e :=
  ⟨by decide, by decide, by decide, _, rfl⟩

/-- A failed step of each of the two kinds: one that leaves HI and LO, and DIVU by zero. -/
theorem witness_FailedStepLeavesTheStateUnchanged :
    (FailsWith .arithmeticOverflow overState (after overState) ∧ ¬ DivuZeroCommits overState) ∧
      FailsWith .invalidInstruction divuState (after divuState) ∧ DivuZeroCommits divuState :=
  ⟨⟨⟨stepped (by decide), by decide, by decide⟩, fun ⟨_, _, _, h, _⟩ => by
      have := h.2.symm.trans (show _ = .ok (.add 3 1 2) by decide); simp at this⟩,
    ⟨stepped (by decide), by decide, by decide⟩, by decide, 1, 2, by decide, by decide⟩

theorem witness_FailedStepRepeats : FailsWith .invalidInstruction divuState (after divuState) :=
  ⟨stepped (by decide), by decide, by decide⟩

theorem witness_InvalidInstructionExactly :
    (step divuState = .next (after divuState) ∧ (after divuState).status = some .invalidInstruction) ∧
      step addState = .next (after addState) ∧ (after addState).status = some .success :=
  ⟨⟨stepped (by decide), by decide⟩, stepped (by decide), by decide⟩

theorem witness_InvalidAlignmentExactly :
    halfwordAddress dataState (.lh 2 1#16 1) = some 0x101#32 ∧ (0x101#32).toNat % 4 = 1 ∧
    halfwordAddress dataState (.sh 2 0xFFFF#16 1) = some 0xFF#32 ∧ (0xFF#32).toNat % 4 = 3 ∧
    exec (.lhu 2 3#16 1) dataState = .next (done (.lhu 2 3#16 1) dataState) ∧
      (done (.lhu 2 3#16 1) dataState).status = some .invalidAlignment :=
  ⟨by decide, by decide, by decide, by decide, executed (by decide), by decide⟩

/-- The first values past each end of the range. -/
theorem witness_ArithmeticOverflowExactly :
    exactSum overState (.add 3 1 2) = some 2147483648 ∧ ¬ FitsWord 2147483648 ∧
    exactSum (probe 0#32 [(1, 0x80000000#32)]) (.addi 3 1 0xFFFF#16) = some (-2147483649) ∧ ¬ FitsWord (-2147483649) ∧
    exec (.add 3 1 2) overState = .next (done (.add 3 1 2) overState) ∧
      (done (.add 3 1 2) overState).status = some .arithmeticOverflow :=
  ⟨by decide, by decide, by decide, by decide, executed (by decide), by decide⟩

theorem witness_MemoryErrorExactly :
    step (setPc addState 0x200#32) = .next (after (setPc addState 0x200#32)) ∧
      (after (setPc addState 0x200#32)).status = some (.memoryError .memErr) ∧ step addState = .next (after addState) :=
  ⟨stepped (by decide), by decide, stepped (by decide)⟩

theorem witness_SuccessFollowsTheSequencer :
    exec (.add 3 1 2) addState = .next (done (.add 3 1 2) addState) ∧
      (done (.add 3 1 2) addState).status = some .success ∧ ownControl (.add 3 1 2) = false :=
  ⟨executed (by decide), by decide, by decide⟩

theorem witness_ControlTransfersAlwaysSucceed : ownControl (.jalr 1 1) = true ∧ ownControl (.beq 0 0 0xFFFF#16) = true := by
  decide

theorem witness_StepKeepsTheInvariant : MachineInv addState ∧ step addState = .next (after addState) :=
  ⟨⟨by decide, by decide, by decide⟩, stepped (by decide)⟩

theorem witness_ResetHasTheInvariant : (probeMemory 0x24420001#32).wf = true := by decide

theorem witness_RequestsAreFetchThenAlignedWords :
    step (probe 0xA0220001#32 [(1, 0x100#32)]) = .next (after (probe 0xA0220001#32 [(1, 0x100#32)])) ∧
      (after (probe 0xA0220001#32 [(1, 0x100#32)])).requests.length = 3 :=
  ⟨stepped (by decide), by decide⟩

theorem witness_RequestsFollowTheTable :
    (exec (.add 3 1 2) addState = .next (done (.add 3 1 2) addState) ∧
      (done (.add 3 1 2) addState).status = some .success ∧ dataOperand (.add 3 1 2) = none) ∧
    (exec (.lw 2 3#16 1) lastState = .next (done (.lw 2 3#16 1) lastState) ∧
      (done (.lw 2 3#16 1) lastState).status = some .success ∧ dataOperand (.lw 2 3#16 1) = some (3#16, 1) ∧
      isStore (.lw 2 3#16 1) = false) ∧
    (exec (.sw 2 3#16 1) lastState = .next (done (.sw 2 3#16 1) lastState) ∧
      (done (.sw 2 3#16 1) lastState).status = some .success ∧ dataOperand (.sw 2 3#16 1) = some (3#16, 1)) ∧
    exec (.sb 2 3#16 1) lastState = .next (done (.sb 2 3#16 1) lastState) ∧
      (done (.sb 2 3#16 1) lastState).status = some .success ∧ dataOperand (.sb 2 3#16 1) = some (3#16, 1) :=
  ⟨⟨executed (by decide), by decide, rfl⟩, ⟨executed (by decide), by decide, rfl, rfl⟩,
    ⟨executed (by decide), by decide, rfl⟩, executed (by decide), by decide, rfl⟩

theorem witness_OnlyTheNamedRegisterChanges :
    exec (.add 3 1 2) addState = .next (done (.add 3 1 2) addState) ∧ destReg (.add 3 1 2) ≠ some 31 :=
  ⟨executed (by decide), by decide⟩

theorem witness_OnlyMulDivAndMovesChangeHiLo :
    exec (.add 3 1 2) addState = .next (done (.add 3 1 2) addState) ∧ writesHiLo (.add 3 1 2) = false :=
  ⟨executed (by decide), by decide⟩

/-- A load, and a store with the two addresses next to its word. -/
theorem witness_OnlyStoresChangeMemory :
    (exec (.lw 2 3#16 1) lastState = .next (done (.lw 2 3#16 1) lastState) ∧ isStore (.lw 2 3#16 1) = false) ∧
    exec (.sh 2 2#16 1) dataState = .next (done (.sh 2 2#16 1) dataState) ∧
      dataOperand (.sh 2 2#16 1) = some (2#16, 1) ∧
      0xFF < (align4 (dataState.ea 1 2#16)).toNat ∧ (align4 (dataState.ea 1 2#16)).toNat + 4 ≤ 0x104 :=
  ⟨⟨executed (by decide), rfl⟩, executed (by decide), rfl, by decide, by decide⟩

/-- Each sum and difference at both ends of the range. -/
theorem witness_TrappingAluResultsInRange :
    (let s := probe 0#32 [(1, 0x7FFFFFFE#32), (2, 1#32)];
      (s.getReg 1).toInt + (s.getReg 2).toInt = 2147483647 ∧ (s.getReg 1).toInt + (1#16 : Half).toInt = 2147483647) ∧
    (let s := probe 0#32 [(1, 0x80000001#32), (2, 0xFFFFFFFF#32), (4, 1#32)];
      (s.getReg 1).toInt + (s.getReg 2).toInt = -2147483648 ∧
      (s.getReg 1).toInt + (0xFFFF#16 : Half).toInt = -2147483648 ∧
      (s.getReg 1).toInt - (s.getReg 4).toInt = -2147483648) ∧
    (let s := probe 0#32 [(1, 0xFFFFFFFF#32), (2, 0x80000000#32)];
      (s.getReg 1).toInt - (s.getReg 2).toInt = 2147483647) ∧
    FitsWord 2147483647 ∧ FitsWord (-2147483648) := by decide

theorem witness_UnsignedDivideResults :
    (probe 0#32 [(2, 1#32)]).getReg 2 ≠ 0#32 ∧ (probe 0#32 [(2, 0xFFFFFFFF#32)]).getReg 2 ≠ 0#32 := by decide

theorem witness_UnsignedDivideByZeroTraps :
    (divuState.getReg 2 = 0#32 ∧ divuState.params.divuZeroCommitsHilo = true) ∧
    (let s := withParams divuState { defaultParams with divuZeroCommitsHilo := false };
      s.getReg 2 = 0#32 ∧ s.params.divuZeroCommitsHilo = false) := by decide

/-- S3 of spec/95: `j 0x100` and `j 0x200` in its delay slot. -/
theorem witness_JumpInADelaySlot :
    exec (.j 0x40#26) addState = .next (done (.j 0x40#26) addState) ∧
      exec (.j 0x80#26) (done (.j 0x40#26) addState) = .next (done (.j 0x80#26) (done (.j 0x40#26) addState)) :=
  ⟨executed (by decide), executed (by decide)⟩

theorem witness_ReturnArrivesAfterTheDelaySlot :
    let s := probe 0x03E00008#32 [(31, 0xFFFFFFF0#32)]
    FetchedInstr s (.jr 31) ∧ Succeeds s (after s) ∧ FetchedInstr (after s) (.sll 0 0 0) ∧
      ownControl (.sll 0 0 0) = false ∧ Succeeds (after s) (after (after s)) :=
  ⟨by decide, ⟨stepped (by decide), by decide⟩, by decide, rfl, stepped (by decide), by decide⟩

/-- The four byte offsets of the last word of the memory. -/
theorem witness_load_and_store_words :
    [0#16, 1#16, 2#16, 3#16].all (fun k => decide (WordInMemory lastState (lastState.ea 1 k))) = true := by decide

theorem witness_LoadByteResults : WordInMemory lastState (lastState.ea 1 3#16) ∧
    lastState.params.lbSignExtend = false := by decide

theorem witness_LoadHalfResults : WordInMemory lastState (lastState.ea 1 2#16) ∧
    (lastState.ea 1 2#16).toNat % 2 = 0 := by decide

theorem witness_LoadWordResult : WordInMemory lastState (lastState.ea 1 3#16) := by decide

theorem witness_LoadWordLeftResult : WordInMemory lastState (lastState.ea 1 3#16) := by decide

theorem witness_LoadWordRightResult : WordInMemory lastState (lastState.ea 1 0#16) := by decide

theorem witness_StoreByteResult : WordInMemory lastState (lastState.ea 1 3#16) := by decide

theorem witness_StoreHalfResult : WordInMemory lastState (lastState.ea 1 2#16) ∧
    (lastState.ea 1 2#16).toNat % 2 = 0 := by decide

theorem witness_StoreWordResult : WordInMemory lastState (lastState.ea 1 3#16) := by decide

/-- The first address past the memory, and the last word of the address space. -/
theorem witness_AddressOutsideMemoryTraps :
    (¬ WordInMemory pastState (pastState.ea 1 0#16) ∧ (pastState.ea 1 0#16).toNat % 2 = 0) ∧
    ¬ WordInMemory pastState (pastState.ea 0 0xFFFC#16) := by decide

/-- `sw $2, 4($0)` at 0 writes `addiu $3, $0, 99` to the next instruction's address. -/
theorem witness_StoredInstructionRunsNext :
    let s := probe 0xAC020004#32 [(2, 0x24030063#32)]
    FetchedInstr s (.sw 2 4#16 0) ∧ Succeeds s (after s) ∧ align4 (s.ea 0 4#16) = s.nextPc ∧
      decode s.params (s.getReg 2) = .ok (.addiu 3 0 99#16) :=
  ⟨by decide, ⟨stepped (by decide), by decide⟩, by decide, by decide⟩

/-- Both ends of the range and the first index past each. -/
theorem witness_HostRegisterAccess :
    ((0 : Int) ≤ 0 ∧ (0 : Int) < 32) ∧ ((0 : Int) ≤ 31 ∧ (31 : Int) < 32) ∧ ¬ ((0 : Int) ≤ -1 ∧ (-1 : Int) < 32) ∧
      ¬ ((0 : Int) ≤ 32 ∧ (32 : Int) < 32) := by decide

theorem witness_HostPcResetAndDebugLevel :
    State.reset.params.setPcNext = .plus4 ∧
      (withParams State.reset { defaultParams with setPcNext := .keep }).params.setPcNext = .keep := by decide

theorem witness_HostNeverSeesRegisterZeroChange :
    HostInv addState ∧ (probeMemory 0x24420001#32).wf = true ∧ HostReaches (createCore defaultParams (probeMemory 0x24420001#32))
      (hostCalls [.setRegister 0 0x1234#32, .setPc 0#32, .step]
        (createCore defaultParams (probeMemory 0x24420001#32))) :=
  ⟨⟨by decide, by decide⟩, by decide, _, rfl⟩

/-- S1 of spec/95, and the same memory after `set_pc(0)`. -/
theorem witness_BareResetStaysAtWordZero :
    let s := createCore defaultParams (probeMemory 0x24420001#32)
    ownControl (.addiu 2 2 1#16) = false ∧ isStore (.addiu 2 2 1#16) = false ∧ defaultParams.setPcNext = .plus4 ∧
      (FetchedInstr s (.addiu 2 2 1#16) ∧ Succeeds s (after s)) ∧
      FetchedInstr (setPc s 0#32) (.addiu 2 2 1#16) ∧ Succeeds (setPc s 0#32) (after (setPc s 0#32)) :=
  ⟨by decide, by decide, by decide, ⟨by decide, stepped (by decide), by decide⟩, by decide, stepped (by decide),
    by decide⟩

theorem witness_PlacedInstructionRunsNext :
    State.reset.mem.accepts State.reset.pc = true ∧ (Instr.mtlo 31).wf State.reset.params = true := by decide

end Sys2Proof.Tests
end

section
/-! Encoding (spec/30_encoding.md): the opcode table read field by field, the decoder's checks, and the two directions of
R126 between them. O5, O6 and O7 are then facts about the 53 rows: a word that no row accepts is refused. -/

namespace Sys2Proof.Encoding

open Sys2Proof Sys2Proof.Machine Sys2Proof.Claims Sys2Proof.Laws

/-! ## A word is its fields -/

/-- The fields of the R-type layout (R102) cover a word. -/
theorem append_fields (w : Word) :
    opcodeOf w ++ rsOf w ++ rtOf w ++ rdOf w ++ shamtOf w ++ functOf w = w := by
  have glue {lo m n : Nat} : w.extractLsb' (lo + n) m ++ w.extractLsb' lo n = w.extractLsb' lo (m + n) :=
    BitVec.extractLsb'_append_extractLsb'_eq_extractLsb' rfl
  calc _ = w.extractLsb' (0 + 6 + 5 + 5 + 5 + 5) 6 ++ w.extractLsb' (0 + 6 + 5 + 5 + 5) 5 ++
        w.extractLsb' (0 + 6 + 5 + 5) 5 ++ w.extractLsb' (0 + 6 + 5) 5 ++ w.extractLsb' (0 + 6) 5 ++
        w.extractLsb' 0 6 := rfl
    _ = w.extractLsb' 0 (6 + 5 + 5 + 5 + 5 + 6) := by simp only [glue]
    _ = w := BitVec.extractLsb'_eq_self

/-- A masked comparison is one of each field. -/
theorem and_eq_iff_fields (w m q : Word) : w &&& m = q ↔
    opcodeOf w &&& opcodeOf m = opcodeOf q ∧ rsOf w &&& rsOf m = rsOf q ∧ rtOf w &&& rtOf m = rtOf q ∧
      rdOf w &&& rdOf m = rdOf q ∧ shamtOf w &&& shamtOf m = shamtOf q ∧ functOf w &&& functOf m = functOf q := by
  constructor
  · rintro rfl
    simp only [opcodeOf, rsOf, rtOf, rdOf, shamtOf, functOf, BitVec.extractLsb'_and, and_self]
  · rintro ⟨hop, hrs, hrt, hrd, hsa, hf⟩
    rw [← append_fields w, ← append_fields m, ← append_fields q, BitVec.and_append, BitVec.and_append,
      BitVec.and_append, BitVec.and_append, BitVec.and_append, hop, hrs, hrt, hrd, hsa, hf]

/-! The fields of a literal word, and a field under a full mask, for `simp`. -/

theorem extractLsb'_ofNat_word {lo k : Nat} (n : Nat) (h : lo + k ≤ 32) :
    (BitVec.ofNat 32 n).extractLsb' lo k = BitVec.ofNat k (n / 2 ^ lo) := by
  refine BitVec.eq_of_getLsbD_eq fun i hi => ?_
  have hlo : i + lo < 32 := by omega
  rw [BitVec.getLsbD_extractLsb', BitVec.getLsbD_ofNat, BitVec.getLsbD_ofNat, Nat.testBit_div_two_pow, Nat.add_comm lo i]
  simp [hi, hlo]

@[simp] theorem opcodeOf_ofNat (n : Nat) : opcodeOf (BitVec.ofNat 32 n) = BitVec.ofNat 6 (n / 0x4000000) :=
  extractLsb'_ofNat_word n (by decide)

@[simp] theorem rsOf_ofNat (n : Nat) : rsOf (BitVec.ofNat 32 n) = BitVec.ofNat 5 (n / 0x200000) :=
  extractLsb'_ofNat_word n (by decide)

@[simp] theorem rtOf_ofNat (n : Nat) : rtOf (BitVec.ofNat 32 n) = BitVec.ofNat 5 (n / 0x10000) :=
  extractLsb'_ofNat_word n (by decide)

@[simp] theorem rdOf_ofNat (n : Nat) : rdOf (BitVec.ofNat 32 n) = BitVec.ofNat 5 (n / 0x800) :=
  extractLsb'_ofNat_word n (by decide)

@[simp] theorem shamtOf_ofNat (n : Nat) : shamtOf (BitVec.ofNat 32 n) = BitVec.ofNat 5 (n / 0x40) :=
  extractLsb'_ofNat_word n (by decide)

@[simp] theorem functOf_ofNat (n : Nat) : functOf (BitVec.ofNat 32 n) = BitVec.ofNat 6 n :=
  (extractLsb'_ofNat_word n (by decide)).trans (by rw [Nat.pow_zero, Nat.div_one])

@[simp] theorem and_full_six (x : BitVec 6) : x &&& 63#6 = x := BitVec.and_allOnes

@[simp] theorem and_full_five (x : BitVec 5) : x &&& 31#5 = x := BitVec.and_allOnes

/-! ## The decoder's checks (R112 to R114) -/

theorem ok_eq_ok {i j : Instr} : (.ok i : Except DecodeError Instr) = .ok j ↔ True ∧ i = j := by simp

theorem checkReserved_eq_ok {p : Params} {zero : Bool} {i j : Instr} :
    checkReserved p zero i = .ok j ↔ (p.strictReservedFields = true → zero = true) ∧ i = j := by
  cases hs : p.strictReservedFields <;> cases zero <;> simp [checkReserved, hs]

theorem checkShamt_eq_ok {p : Params} {w : Word} {zero : Bool} {i j : Instr} :
    checkShamt p w zero i = .ok j ↔ (shamtOf w = 0#5 ∧ (p.strictReservedFields = true → zero = true)) ∧ i = j := by
  by_cases h : shamtOf w = 0#5 <;> simp [checkShamt, checkReserved_eq_ok, h]

theorem checkPresent_checkShamt_eq_ok {p : Params} {present : Bool} {w : Word} {zero : Bool} {i j : Instr} :
    checkPresent present (checkShamt p w zero i) = .ok j ↔
      (present = true ∧ shamtOf w = 0#5 ∧ (p.strictReservedFields = true → zero = true)) ∧ i = j := by
  cases present <;> simp [checkPresent, checkShamt_eq_ok]

/-- A word that the decoder refuses makes the step that fetches it end with InvalidInstruction (R127, R142). -/
theorem raises_of_decode_error {p : Params} {w : Word} {e : DecodeError} (h : decode p w = .error e) :
    RaisesInvalidInstruction p w := by
  refine ⟨⟨e, h⟩, fun s hp hacc hw => ?_⟩
  have hd : decodeBytes s.params (s.mem.bytesAt s.pc.toNat) = .error e := by rw [decodeBytes, hw, hp, h]
  rcases step_cases s with ⟨hno, -⟩ | ⟨-, -, -, hstep⟩ | ⟨i, -, hi, -⟩
  · simp [hacc] at hno
  · exact hstep
  · simp [hd] at hi

theorem raises_of_not_ok {p : Params} {w : Word} (h : ∀ i, decode p w ≠ .ok i) : RaisesInvalidInstruction p w := by
  cases hd : decode p w with
  | error e => exact raises_of_decode_error hd
  | ok i => exact absurd hd (h i)

/-! ## The rows -/

/-- A row's strict mask compares all that its default mask does. -/
theorem mask_within_maskStrict :
    ∀ r ∈ opcodeTable, r.maskStrict &&& r.mask = r.mask ∧ r.pattern &&& r.mask = r.pattern := by decide

/-- Strict mode only adds to what a row compares. -/
theorem accepts_iff {r : OpcodeRow} (hr : r ∈ opcodeTable) (p : Params) (w : Word) :
    r.accepts p w = true ↔ r.present p = true ∧ w &&& r.mask = r.pattern ∧
      (p.strictReservedFields = true → w &&& r.maskStrict = r.pattern) := by
  obtain ⟨hmask, hpattern⟩ := mask_within_maskStrict r hr
  have hweaker : w &&& r.maskStrict = r.pattern → w &&& r.mask = r.pattern := fun h => by
    rw [← hmask, ← BitVec.and_assoc, h, hpattern]
  cases hs : p.strictReservedFields
  · simp [OpcodeRow.accepts, hs]
  · simpa [OpcodeRow.accepts, hs] using fun _ => hweaker

/-- The word has the row's opcode, funct (R108) and selector (R111), by which the decoder finds its branch. -/
def Selects (r : OpcodeRow) (w : Word) : Prop :=
  opcodeOf w = opcodeOf r.pattern ∧ (opcodeOf w = 0#6 → functOf w = functOf r.pattern) ∧
    (opcodeOf w = 1#6 → rtOf w = rtOf r.pattern)

/-- Each row's default mask compares all by which the decoder selects it. -/
theorem masks_cover_selection : ∀ r ∈ opcodeTable, opcodeOf r.mask = 63#6 ∧
    (opcodeOf r.pattern = 0#6 → functOf r.mask = 63#6) ∧ (opcodeOf r.pattern = 1#6 → rtOf r.mask = 31#5) := by decide

/-- No two rows have the same opcode, funct and selector. -/
theorem selections_distinct : ∀ q ∈ opcodeTable, ∀ r ∈ opcodeTable, opcodeOf q.pattern = opcodeOf r.pattern →
    (opcodeOf q.pattern = 0#6 → functOf q.pattern = functOf r.pattern) →
    (opcodeOf q.pattern = 1#6 → rtOf q.pattern = rtOf r.pattern) → q = r := by decide

theorem selects_of_accepts {p : Params} {w : Word} {r : OpcodeRow} (hr : r ∈ opcodeTable)
    (h : r.accepts p w = true) : Selects r w := by
  obtain ⟨-, hm, -⟩ := (accepts_iff hr p w).1 h
  obtain ⟨hop, -, hrt, -, -, hf⟩ := (and_eq_iff_fields _ _ _).1 hm
  obtain ⟨cop, cf, crt⟩ := masks_cover_selection r hr
  rw [cop, and_full_six] at hop
  refine ⟨hop, fun h0 => ?_, fun h1 => ?_⟩
  · rw [← hf, cf (hop ▸ h0), and_full_six]
  · rw [← hrt, crt (hop ▸ h1), and_full_five]

/-- At most one row of the table selects a word. -/
theorem selects_unique {w : Word} {q r : OpcodeRow} (hq : q ∈ opcodeTable) (hr : r ∈ opcodeTable)
    (hqw : Selects q w) (hrw : Selects r w) : q = r := by
  obtain ⟨qop, qf, qrt⟩ := hqw
  obtain ⟨rop, rf, rrt⟩ := hrw
  exact selections_distinct q hq r hr (qop.symm.trans rop) (fun h => (qf (qop.trans h)).symm.trans (rf (qop.trans h)))
    (fun h => (qrt (qop.trans h)).symm.trans (rrt (qop.trans h)))

/-! The opcodes, functs and selectors of the rows are those of R107, R108 and R111. -/

theorem opcodes_of_rows : ∀ r ∈ opcodeTable, (opcodeOf r.pattern).toNat ∈
    [0, 1, 2, 3, 4, 5, 6, 7, 8, 9, 10, 11, 12, 13, 14, 15, 32, 33, 34, 35, 36, 37, 38, 40, 41, 43] := by decide

theorem functs_of_rows : ∀ r ∈ opcodeTable, opcodeOf r.pattern = 0#6 → (functOf r.pattern).toNat ∈
    [0, 2, 3, 4, 6, 7, 8, 9, 16, 17, 18, 19, 24, 25, 26, 27, 32, 33, 34, 35, 36, 37, 38, 42, 43] := by decide

theorem selectors_of_rows : ∀ r ∈ opcodeTable, opcodeOf r.pattern = 1#6 → (rtOf r.pattern).toNat ∈ [0, 1, 16, 17] := by
  decide

theorem mem_map_ofNat {n : Nat} {x : BitVec n} {l : List Nat} (h : x.toNat ∈ l) : x ∈ l.map (BitVec.ofNat n) := by
  simpa using List.mem_map_of_mem (f := BitVec.ofNat n) h

/-! ## The decoder's branches are the table's rows -/

/-- `d` is the answer of the decoder's branch for one row: it is an instruction, of the row's name, exactly when the row
accepts the word. -/
def RowBranch (p : Params) (w : Word) (d : Except DecodeError Instr) : Prop :=
  ∃ r ∈ opcodeTable, Selects r w ∧ (r.accepts p w = true ↔ ∃ i, d = .ok i) ∧
    ∀ i, d = .ok i → r.mnemonic = i.mnemonic

/-- No row has the word's opcode, funct and selector, and `d` refuses it. -/
def NoBranch (w : Word) (d : Except DecodeError Instr) : Prop :=
  (∃ e, d = .error e) ∧ ∀ r ∈ opcodeTable, ¬ Selects r w

/-- A branch that checks `c` for the instruction `i` is the branch of `i`'s row when the row compares just `c`. -/
theorem rowBranch_of {p : Params} {w : Word} {d : Except DecodeError Instr} {i : Instr} {r : OpcodeRow} {c : Prop}
    (hd : ∀ {j}, d = .ok j ↔ c ∧ i = j)
    (hfind : opcodeTable.find? (fun r => r.mnemonic == i.mnemonic) = some r) (hsel : Selects r w)
    (hc : (r.present p = true ∧ w &&& r.mask = r.pattern ∧
      (p.strictReservedFields = true → w &&& r.maskStrict = r.pattern)) ↔ c) : RowBranch p w d := by
  have hr := List.mem_of_find?_eq_some hfind
  refine ⟨r, hr, hsel, ?_, ?_⟩
  · simp [accepts_iff hr, hc, hd]
  · rintro j hj
    obtain ⟨-, rfl⟩ := hd.1 hj
    simpa using List.find?_some hfind

/-- Every answer for opcode 0 is that of a row's branch, or of no row. -/
theorem decodeSpecial_branch (p : Params) (w : Word) (hop : opcodeOf w = 0#6) :
    RowBranch p w (decodeSpecial p w) ∨ NoBranch w (decodeSpecial p w) := by
  unfold decodeSpecial
  split
  case h_26 =>
    refine .inr ⟨⟨_, rfl⟩, fun r hr hsel => ?_⟩
    have hf := mem_map_ofNat (functs_of_rows r hr (hsel.1.symm.trans hop))
    rw [← hsel.2.1 hop] at hf
    simp_all
  -- SLL, SRL, SRA: `shamt` is an operand
  case h_1 | h_2 | h_3 =>
    rename_i hf
    refine .inl (rowBranch_of checkReserved_eq_ok rfl ?_ ?_)
    · simp [Selects, hop, hf]
    · simp [and_eq_iff_fields, OpcodeRow.present, hop, hf]
  -- Tier D: the gate of R114 comes first
  case h_4 | h_5 | h_6 | h_9 | h_10 | h_11 | h_12 =>
    rename_i hf
    refine .inl (rowBranch_of checkPresent_checkShamt_eq_ok rfl ?_ ?_)
    · simp [Selects, hop, hf]
    · simp +contextual [and_eq_iff_fields, OpcodeRow.present, hop, hf]
  all_goals
    rename_i hf
    refine .inl (rowBranch_of checkShamt_eq_ok rfl ?_ ?_)
    · simp [Selects, hop, hf]
    · simp +contextual [and_eq_iff_fields, OpcodeRow.present, hop, hf]

/-- The same for opcode 1. -/
theorem decodeRegimm_branch (p : Params) (w : Word) (hop : opcodeOf w = 1#6) :
    RowBranch p w (decodeRegimm w) ∨ NoBranch w (decodeRegimm w) := by
  unfold decodeRegimm
  split
  case h_5 =>
    refine .inr ⟨⟨_, rfl⟩, fun r hr hsel => ?_⟩
    have hrt := mem_map_ofNat (selectors_of_rows r hr (hsel.1.symm.trans hop))
    rw [← hsel.2.2 hop] at hrt
    simp_all
  all_goals
    rename_i hrt
    refine .inl (rowBranch_of ok_eq_ok rfl ?_ ?_)
    · simp [Selects, hop, hrt]
    · simp [and_eq_iff_fields, OpcodeRow.present, hop, hrt]

/-- Every word is decoded by the branch of the one row that selects it, or is refused and selected by no row (R126). -/
theorem decode_branch (p : Params) (w : Word) : RowBranch p w (decode p w) ∨ NoBranch w (decode p w) := by
  unfold decode
  split
  case h_1 hop => exact decodeSpecial_branch p w hop
  case h_2 hop => exact decodeRegimm_branch p w hop
  case h_27 =>
    refine .inr ⟨⟨_, rfl⟩, fun r hr hsel => ?_⟩
    have hop := mem_map_ofNat (opcodes_of_rows r hr)
    rw [← hsel.1] at hop
    simp_all
  -- BLEZ, BGTZ, LUI
  case h_7 | h_8 | h_16 =>
    rename_i hop
    refine .inl (rowBranch_of checkReserved_eq_ok rfl ?_ ?_)
    · simp [Selects, hop]
    · simp [and_eq_iff_fields, OpcodeRow.present, hop]
  all_goals
    rename_i hop
    refine .inl (rowBranch_of ok_eq_ok rfl ?_ ?_)
    · simp [Selects, hop]
    · simp [and_eq_iff_fields, OpcodeRow.present, hop]

/-! ## R126 and the refused encodings -/

theorem decode_of_accepts {p : Params} {w : Word} {r : OpcodeRow} (hr : r ∈ opcodeTable) (h : r.accepts p w = true) :
    ∃ i, decode p w = .ok i := by
  have hsel := selects_of_accepts hr h
  rcases decode_branch p w with ⟨q, hq, hqw, hiff, -⟩ | ⟨-, hnone⟩
  · obtain rfl := selects_unique hq hr hqw hsel
    exact hiff.1 h
  · exact absurd hsel (hnone r hr)

theorem accepts_of_decode {p : Params} {w : Word} {i : Instr} (h : decode p w = .ok i) :
    ∃ r ∈ opcodeTable, r.mnemonic = i.mnemonic ∧ r.accepts p w = true := by
  rcases decode_branch p w with ⟨r, hr, -, hiff, hname⟩ | ⟨⟨e, he⟩, -⟩
  · exact ⟨r, hr, hname i h, hiff.2 ⟨i, h⟩⟩
  · simp [h] at he

/-- A word is refused when no row that selects it accepts it. -/
theorem raises_of_no_row {p : Params} {w : Word} (h : ∀ r ∈ opcodeTable, Selects r w → r.accepts p w ≠ true) :
    RaisesInvalidInstruction p w := by
  refine raises_of_not_ok fun i hi => ?_
  obtain ⟨r, hr, -, hacc⟩ := accepts_of_decode hi
  exact h r hr (selects_of_accepts hr hacc) hacc

/-- Settles O3: the decoder's branches are the rows of the table (`decode_branch`), and a word selects at most one. -/
theorem decodeMatchesExactlyOneTableRow : Obligations.DecodeMatchesExactlyOneTableRow := by
  refine fun p w => ⟨fun i hi => ?_, fun e he => ⟨raises_of_decode_error he, fun r hr => ?_⟩⟩
  · obtain ⟨r, hr, hname, hacc⟩ := accepts_of_decode hi
    exact ⟨r, hr, hname, hacc, fun q hq hqw =>
      selects_unique hq hr (selects_of_accepts hq hqw) (selects_of_accepts hr hacc)⟩
  · by_contra hacc
    obtain ⟨i, hi⟩ := decode_of_accepts hr (by simpa using hacc)
    simp [he] at hi

/-- The rows that compare no `shamt` are those of SLL, SRL and SRA. -/
theorem shamt_of_special_rows : ∀ r ∈ opcodeTable, opcodeOf r.pattern = 0#6 → functOf r.pattern ∉ [0#6, 2#6, 3#6] →
    shamtOf r.mask = 31#5 ∧ shamtOf r.pattern = 0#5 := by decide

/-- Settles O5: every row that selects such a word compares `shamt` with 0. -/
theorem nonzeroShamtIsRejected : Obligations.NonzeroShamtIsRejected := by
  intro p w hop hf0 hf2 hf3 hsa
  refine raises_of_no_row fun r hr ⟨sop, sf, _⟩ hacc => hsa ?_
  obtain ⟨-, hm, -⟩ := (accepts_iff hr p w).1 hacc
  obtain ⟨-, -, -, -, hshamt, -⟩ := (and_eq_iff_fields _ _ _).1 hm
  obtain ⟨cm, cp⟩ := shamt_of_special_rows r hr (sop ▸ hop) (by simp [← sf hop, hf0, hf2, hf3])
  rwa [cm, cp, and_full_five] at hshamt

/-- Settles O6: no row has such an opcode, funct or selector. -/
theorem unexecutedEncodingsAreRejected : Obligations.UnexecutedEncodingsAreRejected := by
  refine fun p w => ⟨fun hno => ?_, fun hop hno => ?_, fun hop hno => ?_⟩
  · exact raises_of_no_row fun r hr ⟨sop, _, _⟩ _ => hno (sop ▸ opcodes_of_rows r hr)
  · exact raises_of_no_row fun r hr ⟨sop, sf, _⟩ _ => hno (sf hop ▸ functs_of_rows r hr (sop ▸ hop))
  · exact raises_of_no_row fun r hr ⟨sop, _, srt⟩ _ => hno (srt hop ▸ selectors_of_rows r hr (sop ▸ hop))

/-- The gates of the Tier D rows (R114). -/
theorem gate_of_tierD_rows : ∀ r ∈ opcodeTable, opcodeOf r.pattern = 0#6 →
    ((functOf r.pattern).toNat ∈ [4, 6, 7] → r.gate = .varShifts) ∧
    ((functOf r.pattern).toNat ∈ [16, 17, 18, 19] → r.gate = .hiloMoves) := by decide

/-- Settles O7: the rows of these functs are gated. -/
theorem tierDRowsNeedTheirParameter : Obligations.TierDRowsNeedTheirParameter := by
  refine fun p w hop => ⟨fun hp hf => ?_, fun hp hf => ?_⟩
  · refine raises_of_no_row fun r hr ⟨sop, sf, _⟩ hacc => ?_
    have hgate := (gate_of_tierD_rows r hr (sop ▸ hop)).1 (sf hop ▸ hf)
    simp [OpcodeRow.accepts, OpcodeRow.present, hgate, hp] at hacc
  · refine raises_of_no_row fun r hr ⟨sop, sf, _⟩ hacc => ?_
    have hgate := (gate_of_tierD_rows r hr (sop ▸ hop)).2 (sf hop ▸ hf)
    simp [OpcodeRow.accepts, OpcodeRow.present, hgate, hp] at hacc

/-! ## The reserved fields (R113)

For each group of rows that R113 lists, the check its branch makes, with an instruction `mk` of the other fields. -/

theorem decode_special {p : Params} {w : Word} (hop : opcodeOf w = 0#6) : decode p w = decodeSpecial p w := by
  rw [decode, hop]; rfl

/-- SLL, SRL and SRA reserve `rs`. -/
theorem decode_reserved_rs {f : BitVec 6} (h : f ∈ [0#6, 2#6, 3#6]) :
    ∃ mk : Reg → Reg → BitVec 5 → Instr, ∀ (p : Params) (w : Word), opcodeOf w = 0#6 → functOf w = f →
      decode p w = checkReserved p (rsOf w == 0) (mk (rdOf w) (rtOf w) (shamtOf w)) := by
  simp only [List.mem_cons, List.not_mem_nil, or_false] at h
  obtain rfl | rfl | rfl := h
  · exact ⟨.sll, fun p w hop hf => by rw [decode_special hop, decodeSpecial, hf]; rfl⟩
  · exact ⟨.srl, fun p w hop hf => by rw [decode_special hop, decodeSpecial, hf]; rfl⟩
  · exact ⟨.sra, fun p w hop hf => by rw [decode_special hop, decodeSpecial, hf]; rfl⟩

/-- JR, MTHI and MTLO reserve `rt` and `rd`. -/
theorem decode_reserved_rt_rd {f : BitVec 6} (h : f ∈ [8#6, 17#6, 19#6]) :
    ∃ (present : Params → Bool) (mk : Reg → Instr), ∀ (p : Params) (w : Word), opcodeOf w = 0#6 → functOf w = f →
      decode p w = checkPresent (present p) (checkShamt p w (rtOf w == 0 && rdOf w == 0) (mk (rsOf w))) := by
  simp only [List.mem_cons, List.not_mem_nil, or_false] at h
  obtain rfl | rfl | rfl := h
  · exact ⟨fun _ => true, .jr, fun p w hop hf => by rw [decode_special hop, decodeSpecial, hf]; rfl⟩
  · exact ⟨Params.extHiloMoves, .mthi, fun p w hop hf => by rw [decode_special hop, decodeSpecial, hf]; rfl⟩
  · exact ⟨Params.extHiloMoves, .mtlo, fun p w hop hf => by rw [decode_special hop, decodeSpecial, hf]; rfl⟩

/-- JALR reserves `rt`. -/
theorem decode_reserved_rt (p : Params) (w : Word) (hop : opcodeOf w = 0#6) (hf : functOf w = 9#6) :
    decode p w = checkShamt p w (rtOf w == 0) (.jalr (rdOf w) (rsOf w)) := by
  rw [decode_special hop, decodeSpecial, hf]; rfl

/-- MFHI and MFLO reserve `rs` and `rt`. -/
theorem decode_reserved_rs_rt {f : BitVec 6} (h : f ∈ [16#6, 18#6]) :
    ∃ mk : Reg → Instr, ∀ (p : Params) (w : Word), opcodeOf w = 0#6 → functOf w = f →
      decode p w = checkPresent p.extHiloMoves (checkShamt p w (rsOf w == 0 && rtOf w == 0) (mk (rdOf w))) := by
  simp only [List.mem_cons, List.not_mem_nil, or_false] at h
  obtain rfl | rfl := h
  · exact ⟨.mfhi, fun p w hop hf => by rw [decode_special hop, decodeSpecial, hf]; rfl⟩
  · exact ⟨.mflo, fun p w hop hf => by rw [decode_special hop, decodeSpecial, hf]; rfl⟩

/-- MULT, MULTU, DIV and DIVU reserve `rd`. -/
theorem decode_reserved_rd {f : BitVec 6} (h : f ∈ [24#6, 25#6, 26#6, 27#6]) :
    ∃ mk : Reg → Reg → Instr, ∀ (p : Params) (w : Word), opcodeOf w = 0#6 → functOf w = f →
      decode p w = checkShamt p w (rdOf w == 0) (mk (rsOf w) (rtOf w)) := by
  simp only [List.mem_cons, List.not_mem_nil, or_false] at h
  obtain rfl | rfl | rfl | rfl := h
  · exact ⟨.mult, fun p w hop hf => by rw [decode_special hop, decodeSpecial, hf]; rfl⟩
  · exact ⟨.multu, fun p w hop hf => by rw [decode_special hop, decodeSpecial, hf]; rfl⟩
  · exact ⟨.div, fun p w hop hf => by rw [decode_special hop, decodeSpecial, hf]; rfl⟩
  · exact ⟨.divu, fun p w hop hf => by rw [decode_special hop, decodeSpecial, hf]; rfl⟩

/-- LUI reserves `rs`. -/
theorem decode_lui (p : Params) (w : Word) (hop : opcodeOf w = 0x0F#6) :
    decode p w = checkReserved p (rsOf w == 0) (.lui (rtOf w) (immOf w)) := by
  rw [decode, hop]; rfl

/-- BLEZ and BGTZ reserve `rt`. -/
theorem decode_branch_reserved_rt {o : BitVec 6} (h : o ∈ [6#6, 7#6]) :
    ∃ mk : Reg → Half → Instr, ∀ (p : Params) (w : Word), opcodeOf w = o →
      decode p w = checkReserved p (rtOf w == 0) (mk (rsOf w) (immOf w)) := by
  simp only [List.mem_cons, List.not_mem_nil, or_false] at h
  obtain rfl | rfl := h
  · exact ⟨.blez, fun p w hop => by rw [decode, hop]; rfl⟩
  · exact ⟨.bgtz, fun p w hop => by rw [decode, hop]; rfl⟩

/-- R113 for a word `w` that is `v` but for the reserved fields of its row; `zero` says that these are zero in `w`. -/
def ReservedFollowStrict (p : Params) (w v : Word) (zero : Bool) : Prop :=
  (p.strictReservedFields = true → zero = false → RaisesInvalidInstruction p w) ∧
    (p.strictReservedFields = false → decode p w = decode p v)

theorem reserved_of_checkReserved {p : Params} {w v : Word} {zero : Bool} (i : Instr)
    (hw : decode p w = checkReserved p zero i) (hv : decode p v = checkReserved p true i) :
    ReservedFollowStrict p w v zero := by
  refine ⟨fun hs hz => raises_of_not_ok fun j => ?_, fun hs => ?_⟩
  · simp [hw, checkReserved_eq_ok, hs, hz]
  · simp [hw, hv, checkReserved, hs]

theorem reserved_of_checkShamt {p : Params} {w v : Word} {zero : Bool} (present : Bool) (i : Instr)
    (hw : decode p w = checkPresent present (checkShamt p w zero i))
    (hv : decode p v = checkPresent present (checkShamt p v true i)) (hsa : shamtOf w = shamtOf v) :
    ReservedFollowStrict p w v zero := by
  refine ⟨fun hs hz => raises_of_not_ok fun j => ?_, fun hs => ?_⟩
  · simp [hw, checkPresent_checkShamt_eq_ok, hs, hz]
  · simp [hw, hv, checkShamt, checkReserved, hs, hsa]

section
variable (p : Params) (rs rt rd : Reg) (sa : BitVec 5) (imm : Half)

theorem reserved_rs {f : BitVec 6} (hf : f ∈ [0#6, 2#6, 3#6]) :
    ReservedFollowStrict p (rWord rs rt rd sa f) (rWord 0#5 rt rd sa f) (rs == 0#5) := by
  obtain ⟨mk, h⟩ := decode_reserved_rs hf
  exact reserved_of_checkReserved (mk rd rt sa) (by simp [h]) (by simp [h])

theorem reserved_rs_lui :
    ReservedFollowStrict p (iWord 0x0F#6 rs rt imm) (iWord 0x0F#6 0#5 rt imm) (rs == 0#5) :=
  reserved_of_checkReserved (.lui rt imm) (by simp [decode_lui]) (by simp [decode_lui])

theorem reserved_rt_rd {f : BitVec 6} (hf : f ∈ [8#6, 17#6, 19#6]) :
    ReservedFollowStrict p (rWord rs rt rd 0#5 f) (rWord rs 0#5 0#5 0#5 f) (rt == 0#5 && rd == 0#5) := by
  obtain ⟨present, mk, h⟩ := decode_reserved_rt_rd hf
  exact reserved_of_checkShamt (present p) (mk rs) (by simp [h]) (by simp [h]) (by simp)

theorem reserved_rt :
    ReservedFollowStrict p (rWord rs rt rd 0#5 9#6) (rWord rs 0#5 rd 0#5 9#6) (rt == 0#5) :=
  reserved_of_checkShamt true (.jalr rd rs) (by simp [decode_reserved_rt, checkPresent])
    (by simp [decode_reserved_rt, checkPresent]) (by simp)

theorem reserved_rs_rt {f : BitVec 6} (hf : f ∈ [16#6, 18#6]) :
    ReservedFollowStrict p (rWord rs rt rd 0#5 f) (rWord 0#5 0#5 rd 0#5 f) (rs == 0#5 && rt == 0#5) := by
  obtain ⟨mk, h⟩ := decode_reserved_rs_rt hf
  exact reserved_of_checkShamt p.extHiloMoves (mk rd) (by simp [h]) (by simp [h]) (by simp)

theorem reserved_rd {f : BitVec 6} (hf : f ∈ [24#6, 25#6, 26#6, 27#6]) :
    ReservedFollowStrict p (rWord rs rt rd 0#5 f) (rWord rs rt 0#5 0#5 f) (rd == 0#5) := by
  obtain ⟨mk, h⟩ := decode_reserved_rd hf
  exact reserved_of_checkShamt true (mk rs rt) (by simp [h, checkPresent]) (by simp [h, checkPresent]) (by simp)

theorem reserved_rt_branch {o : BitVec 6} (ho : o ∈ [6#6, 7#6]) :
    ReservedFollowStrict p (iWord o rs rt imm) (iWord o rs 0#5 imm) (rt == 0#5) := by
  obtain ⟨mk, h⟩ := decode_branch_reserved_rt ho
  exact reserved_of_checkReserved (mk rs imm) (by simp [h]) (by simp [h])

end

/-- Settles O8: one lemma per group of rows, its first half in strict mode and its second half otherwise. -/
theorem reservedFieldsFollowTheStrictParameter : Obligations.ReservedFieldsFollowTheStrictParameter := by
  intro p rs rt rd sa imm
  refine ⟨fun hs => ⟨fun hne f hf => ?_, fun hne => ?_, fun hne f hf => ?_, fun hne => ?_, fun hne f hf => ?_,
    fun hne f hf => ?_, fun hne o ho => ?_⟩, fun hs => ⟨fun f hf => ?_, ?_, fun f hf => ?_, ?_, fun f hf => ?_,
    fun f hf => ?_, fun o ho => ?_⟩⟩
  · exact (reserved_rs p rs rt rd sa hf).1 hs (by simpa using hne)
  · exact (reserved_rs_lui p rs rt imm).1 hs (by simpa using hne)
  · exact (reserved_rt_rd p rs rt rd hf).1 hs (by simpa [imp_iff_not_or] using hne)
  · exact (reserved_rt p rs rt rd).1 hs (by simpa using hne)
  · exact (reserved_rs_rt p rs rt rd hf).1 hs (by simpa [imp_iff_not_or] using hne)
  · exact (reserved_rd p rs rt rd hf).1 hs (by simpa using hne)
  · exact (reserved_rt_branch p rs rt imm ho).1 hs (by simpa using hne)
  · exact (reserved_rs p rs rt rd sa hf).2 hs
  · exact (reserved_rs_lui p rs rt imm).2 hs
  · exact (reserved_rt_rd p rs rt rd hf).2 hs
  · exact (reserved_rt p rs rt rd).2 hs
  · exact (reserved_rs_rt p rs rt rd hf).2 hs
  · exact (reserved_rd p rs rt rd hf).2 hs
  · exact (reserved_rt_branch p rs rt imm ho).2 hs

end Sys2Proof.Encoding
end

section
/-! Failed steps (spec/40_step.md R150, R152). No meaning reads `status` or `requests` (logs 1 and 2), so a step from two
states that differ in these records alone is one step; and an error changes nothing else but for DIVU by zero, which
fails from the state it leaves as it did before. -/

namespace Sys2Proof.FailedStep

open Sys2Proof Sys2Proof.Machine Sys2Proof.Claims

/-! ## No meaning reads the status -/

/-- The state with another answer recorded for the last step. -/
def withStatus (s : State) (x : Option Status) : State := { s with status := x }

section
variable (s : State) (x : Option Status)

@[simp] theorem withStatus_getReg (r : Reg) : (withStatus s x).getReg r = s.getReg r := rfl
@[simp] theorem withStatus_params : (withStatus s x).params = s.params := rfl
@[simp] theorem withStatus_raise (e : Status) : (withStatus s x).raise e = s.raise e := rfl

theorem setReg_withStatus (r : Reg) (v : Word) : (withStatus s x).setReg r v = withStatus (s.setReg r v) x := by
  by_cases hr : r = 0#5
  · rw [hr]; rfl
  · rw [State.setReg_of_ne _ hr, State.setReg_of_ne _ hr]; rfl

/-! An end of a step records its own status. -/

theorem setReg_tail_withStatus (r : Reg) (v : Word) : ((withStatus s x).setReg r v).tail = (s.setReg r v).tail := by
  rw [setReg_withStatus]; rfl

theorem setReg_jumpTo_withStatus (r : Reg) (v t : Word) :
    (((withStatus s x).setReg r v).jumpTo t).succeed = ((s.setReg r v).jumpTo t).succeed := by
  rw [setReg_withStatus]; rfl

theorem branchAndLink_withStatus (taken : Bool) (offset : Half) (r : Reg) :
    (withStatus s x).branchAndLink taken offset r = s.branchAndLink taken offset r := by
  rw [State.branchAndLink_eq_jumpTo, State.branchAndLink_eq_jumpTo]
  exact setReg_jumpTo_withStatus s x r _ _

theorem load_withStatus (rt : Reg) (offset : Half) (base : Reg) (value : Word → BitVec 2 → Word) :
    (withStatus s x).load rt offset base value = s.load rt offset base value := by
  cases ha : s.mem.accepts (align4 (s.ea base offset))
  · rw [State.load_refused ha, State.load_refused (s := withStatus s x) ha]; rfl
  · rw [State.load_ok ha, State.load_ok (s := withStatus s x) ha]
    exact setReg_tail_withStatus (s.issue _) x rt _

/-- No execute phase reads the status (log 1). -/
theorem exec_withStatus (i : Instr) : exec i (withStatus s x) = exec i s := by
  cases i with
  | add | sub | addi =>
    simp only [exec, execAdd, execSub, execAddi, withStatus_getReg]
    split
    · exact setReg_tail_withStatus ..
    · exact withStatus_raise ..
  | addu | subu | and | or | xor | slt | sltu | sll | srl | sra | sllv | srlv | srav | addiu | slti | sltiu | andi | ori
  | xori | lui | mfhi | mflo => exact setReg_tail_withStatus ..
  | mult | multu | div | mthi | mtlo | beq | bne | blez | bgtz | bltz | bgez | j | jr => rfl
  | divu rs rt =>
    by_cases hz : s.getReg rt = 0#32
    · rw [exec_divu_zero rs hz, exec_divu_zero (s := withStatus s x) rs hz, withStatus_params]
      split <;> rfl
    · exact (if_neg hz).trans (if_neg hz).symm
  | bltzal | bgezal => exact branchAndLink_withStatus ..
  | jal | jalr => exact setReg_jumpTo_withStatus ..
  | lb => rw [exec, execLb, load_withStatus]; rfl
  | lbu | lw | lwl | lwr =>
    simp only [exec, execLbu, execLw, execLwl, execLwr, withStatus_getReg, load_withStatus]
  | lh | lhu => exact ite_congr rfl (fun _ => load_withStatus ..) fun _ => rfl
  | sb | sh | sw => rfl

end

/-- A step reads neither record of the step before it. -/
theorem step_ignores_records (s : State) (x : Option Status) (qs : List Request) :
    step { s with status := x, requests := qs } = step s := by
  cases hr : s.mem.read s.pc with
  | error c => simp only [step, State.fetch, hr]; rfl
  | ok b =>
    cases hd : decodeBytes s.params b with
    | error e => simp only [step, State.fetch, hr, hd]; rfl
    | ok i =>
      simp only [step, State.fetch, hr, hd]
      exact exec_withStatus { s with requests := [.read s.pc 4] } x i

/-! ## DIVU by zero under DIVU_ZERO_COMMITS_HILO (R313) -/

theorem step_of_fetchedInstr {s : State} {i : Instr} (h : FetchedInstr s i) :
    step s = exec i { s with requests := [.read s.pc 4] } := by
  obtain ⟨hacc, hdec⟩ := h
  rcases step_cases s with ⟨hno, -⟩ | ⟨e, -, herr, -⟩ | ⟨j, -, hj, hstep⟩
  · simp [hacc] at hno
  · simp [hdec] at herr
  · rw [hstep, Except.ok.inj (hj.symm.trans hdec)]

theorem step_of_divuZeroCommits {s : State} (h : DivuZeroCommits s) :
    step s = .next { s with hi := 0#32, lo := 0#32, status := some .invalidInstruction, requests := [.read s.pc 4] } := by
  obtain ⟨hcommits, rs, rt, hfetch, hzero⟩ := h
  calc step s = exec (.divu rs rt) { s with requests := [.read s.pc 4] } := step_of_fetchedInstr hfetch
    _ = _ := exec_divu_zero rs hzero
    _ = _ := by rw [if_pos hcommits]; rfl

/-! ## Every other error (R150) -/

theorem eq_of_raise {s t : State} {d e : Status} (h : s.raise d = .next t) (ht : t.status = some e) :
    t = { s with status := some e } := by
  cases h
  cases ht
  rfl

theorem status_of_succeed {s t : State} (h : s.succeed = .next t) : t.status = some .success := by
  cases h
  rfl

/-- A failing execute phase changes only the two records, and issues at most one request: only SB and SH make two, and
the second goes where the first was accepted. DIVU by zero under DIVU_ZERO_COMMITS_HILO is the exception. -/
theorem exec_failed {i : Instr} {s t : State} {e : Status} (h : exec i s = .next t) (ht : t.status = some e)
    (he : e ≠ .success)
    (hdivu : ∀ rs rt, i = .divu rs rt → s.getReg rt = 0#32 → s.params.divuZeroCommitsHilo = false) :
    t = { s with status := some e } ∨ ∃ q, t = { s.issue q with status := some e } := by
  have no_success {u : State} (hu : exec i s = u.succeed) : False :=
    he (Option.some.inj (ht.symm.trans (status_of_succeed (hu.symm.trans h))))
  cases exec_shape i s with
  | register | hilo | control | link | load | storeLane | storeWord => exact (no_success ‹_›).elim
  | overflow _ _ hr | misaligned _ _ _ _ hr => exact .inl (eq_of_raise (hr.symm.trans h) ht)
  | readRefused _ _ _ _ _ hr | writeRefused _ _ _ _ _ hr => exact .inr ⟨_, eq_of_raise (hr.symm.trans h) ht⟩
  | divideByZero rs rt hi hz hr =>
    rw [hdivu rs rt hi hz] at hr
    exact .inl (eq_of_raise (hr.symm.trans h) ht)

/-- The same of a step: only its last request can be one that the memory refused. -/
theorem step_failed {s t : State} {e : Status} (h : FailsWith e s t) (hdivu : ¬ DivuZeroCommits s) :
    ∃ qs, t = { s with status := some e, requests := qs } ∧ ∀ q ∈ qs.dropLast, s.mem.accepts q.addr = true := by
  obtain ⟨hstep, ht, he⟩ := h
  have of_fetch {d : Status} (hs : step s = State.raise { s with requests := [.read s.pc 4] } d) :
      t = { s with status := some e, requests := [.read s.pc 4] } := eq_of_raise (hs.symm.trans hstep) ht
  rcases step_cases s with ⟨-, hs⟩ | ⟨-, -, -, hs⟩ | ⟨i, hacc, hdec, hs⟩
  · exact ⟨_, of_fetch hs, by simp⟩
  · exact ⟨_, of_fetch hs, by simp⟩
  · have hzero (rs rt) (hi : i = .divu rs rt) (hz : s.getReg rt = 0#32) : s.params.divuZeroCommitsHilo = false :=
      Bool.eq_false_iff.2 fun hc => hdivu ⟨hc, rs, rt, hi ▸ ⟨hacc, hdec⟩, hz⟩
    rcases exec_failed (hs.symm.trans hstep) ht he hzero with rfl | ⟨q, rfl⟩
    · exact ⟨_, rfl, by simp⟩
    · exact ⟨_, rfl, by simpa [Request.addr] using hacc⟩

/-! ## The two statements -/

/-- Settles O14: DIVU by zero that commits HI and LO finds the same instruction and divisor again; after every other
error only the records differ, which no step reads. -/
theorem failedStepRepeats : Obligations.FailedStepRepeats := by
  intro s t e h
  by_cases hdivu : DivuZeroCommits s
  · obtain ⟨hstep, -, -⟩ := h
    obtain rfl := Host.Outcome.next.inj (hstep.symm.trans (step_of_divuZeroCommits hdivu))
    exact step_of_divuZeroCommits hdivu
  · obtain ⟨qs, rfl, -⟩ := step_failed h hdivu
    obtain ⟨hstep, -, -⟩ := h
    exact (step_ignores_records s (some e) qs).trans hstep

/-- Settles O13, by cases on whether the step is the exception. -/
theorem failedStepLeavesTheStateUnchanged : Obligations.FailedStepLeavesTheStateUnchanged := by
  intro s t e h
  by_cases hdivu : DivuZeroCommits s
  · obtain ⟨hstep, ht, -⟩ := h
    obtain rfl := Host.Outcome.next.inj (hstep.symm.trans (step_of_divuZeroCommits hdivu))
    exact ⟨rfl, rfl, fun _ => rfl, ⟨rfl, fun _ => rfl⟩, rfl, by simp,
      fun _ => ⟨(Option.some.inj ht).symm, rfl, rfl⟩, fun hno => absurd hdivu hno⟩
  · obtain ⟨qs, rfl, hqs⟩ := step_failed h hdivu
    exact ⟨rfl, rfl, fun _ => rfl, ⟨rfl, fun _ => rfl⟩, rfl, hqs, fun hd => absurd hd hdivu, fun _ => ⟨rfl, rfl⟩⟩

end Sys2Proof.FailedStep
end

section
/-! ALU and constant shifts (spec/41_alu.md R202 to R204). An instruction that ends by writing one register through the
common tail has a `RegisterResult`, so what is left of each statement is the value: the primitives of R203 and R204 as
arithmetic. -/

namespace Sys2Proof.Alu

open Sys2Proof Sys2Proof.Machine Sys2Proof.Claims

/-! ## One register written through the common tail (R147) -/

theorem registerResult_of_tail {i : Instr} {s : State} {rd : Reg} {v : Word} {qs : List Request}
    (h : exec i s = (State.setReg { s with requests := s.requests ++ qs } rd v).tail) : RegisterResult i s rd v qs := by
  have hregs (r : Reg) := State.setReg_getReg { s with requests := s.requests ++ qs } rd r v
  refine ⟨_, h.trans (State.tail_eq _), ⟨rfl, ?_, ?_⟩, hregs, ?_, ?_, ⟨?_, fun _ => ?_⟩, ?_, ?_⟩ <;> simp

/-- The same for an instruction with no memory request. -/
theorem registerResult_of_setReg_tail {i : Instr} {s : State} {rd : Reg} {v : Word}
    (h : exec i s = (s.setReg rd v).tail) : RegisterResult i s rd v [] :=
  registerResult_of_tail (by rw [h, List.append_nil])

/-! ## The comparisons (R203) -/

theorem sltVal_eq (a b : Word) : sltVal a b = if a.toInt < b.toInt then 1#32 else 0#32 := by
  simp only [sltVal, bool32, decide_eq_true_eq]

theorem sltuVal_eq (a b : Word) : sltuVal a b = if a.toNat < b.toNat then 1#32 else 0#32 := by
  simp only [sltuVal, bool32, decide_eq_true_eq]

/-- Sign extension keeps the number an immediate stands for (R106). -/
theorem toInt_simm (imm : Half) : (simm imm).toInt = imm.toInt :=
  BitVec.toInt_signExtend_of_le (by decide)

/-! ## The shifts (R204), each by any amount of 5 bits -/

theorem sllVal_eq (a : Word) (n : BitVec 5) : sllVal a n = BitVec.ofNat 32 (a.toNat * 2 ^ n.toNat) := by
  rw [sllVal, ← Nat.shiftLeft_eq]
  rfl

theorem srlVal_eq (a : Word) (n : BitVec 5) : srlVal a n = BitVec.ofNat 32 (a.toNat / 2 ^ n.toNat) := by
  apply BitVec.eq_of_toNat_eq
  have hlt : a.toNat / 2 ^ n.toNat < 2 ^ 32 := (Nat.div_le_self ..).trans_lt a.isLt
  rw [srlVal, BitVec.toNat_ushiftRight, Nat.shiftRight_eq_div_pow, BitVec.toNat_ofNat, Nat.mod_eq_of_lt hlt]

/-- R204 fills the vacated bits with the sign, which is Lean's arithmetic shift. -/
theorem sraVal_eq_sshiftRight (a : Word) (n : BitVec 5) : sraVal a n = a.sshiftRight n.toNat := by
  cases hs : a.msb
  · rw [sraVal, if_pos hs, BitVec.sshiftRight_eq_of_msb_false hs]
  · have hones : 0xFFFFFFFF#32 = BitVec.allOnes 32 := rfl
    rw [sraVal, if_neg (by simp [hs]), BitVec.sshiftRight_eq_of_msb_true hs, hones]
    ext k hk
    simp [Bool.or_comm, -BitVec.reduceAllOnes]

theorem sraVal_eq (a : Word) (n : BitVec 5) : sraVal a n = BitVec.ofInt 32 (a.toInt / 2 ^ n.toNat) := by
  rw [sraVal_eq_sshiftRight, BitVec.sshiftRight, Int.shiftRight_eq_div_pow, Nat.cast_pow]
  rfl

/-! ## The three statements -/

/-- Settles O31, by the three shifts as arithmetic. -/
theorem constantShiftResults : Obligations.ConstantShiftResults := by
  intro s rd rt sa
  refine ⟨?sll, ?srl, ?sra⟩ <;> apply registerResult_of_setReg_tail
  case sll => rw [← sllVal_eq]; rfl
  case srl => rw [← srlVal_eq]; rfl
  case sra => rw [← sraVal_eq]; rfl

/-- Settles O28: each meaning is its R202 expression, written through the common tail. -/
theorem wrappingAluResults : Obligations.WrappingAluResults := fun _ _ _ _ =>
  ⟨registerResult_of_setReg_tail rfl, registerResult_of_setReg_tail rfl, registerResult_of_setReg_tail rfl,
    registerResult_of_setReg_tail rfl, registerResult_of_setReg_tail rfl⟩

/-- Settles O30, by the two comparisons; SLTI's immediate keeps its signed value when extended. -/
theorem comparisonResults : Obligations.ComparisonResults := by
  intro s rd rs rt imm
  refine ⟨?slt, ?sltu, ?slti, ?sltiu⟩ <;> apply registerResult_of_setReg_tail
  case slt => rw [← sltVal_eq]; rfl
  case sltu => rw [← sltuVal_eq]; rfl
  case slti => rw [← toInt_simm, ← sltVal_eq]; rfl
  case sltiu => rw [← sltuVal_eq]; rfl

end Sys2Proof.Alu
end

section
/-! Multiply and signed divide (spec/42_muldiv.md R300 to R302, R310 to R312). An instruction that ends by `retireHiLo`
has a `HiLoResult`, so what is left of each statement is the pair: the product is put together again from its halves,
and the quotient and remainder are those of `BitVec.sdiv` and `BitVec.srem`. -/

namespace Sys2Proof.MulDiv

open Sys2Proof.Machine Sys2Proof.Claims

/-! ## Writing HI and LO through the common tail (R147) -/

theorem hiLoResult_of_retireHiLo {i : Instr} {s : State} {v : HiLo} {post : Word → Word → Prop}
    (h : exec i s = s.retireHiLo v) (hpost : post v.hi v.lo) : HiLoResult i s post :=
  ⟨_, h.trans (State.tail_eq _), ⟨rfl, rfl, rfl⟩, hpost, State.setHiLo_getReg s v.hi v.lo, ⟨rfl, fun _ => rfl⟩, rfl, rfl⟩

/-! ## The products (R300, R301): HI and LO are the halves of a 64-bit number that holds the product exactly -/

theorem multVal_hi_append_lo (a b : Word) :
    (multVal a b).hi ++ (multVal a b).lo = BitVec.ofInt 64 (a.toInt * b.toInt) :=
  BitVec.extractLsb'_append_extractLsb' (w := 32) (len := 32)

theorem multuVal_hi_append_lo (a b : Word) :
    (multuVal a b).hi ++ (multuVal a b).lo = BitVec.ofNat 64 (a.toNat * b.toNat) :=
  BitVec.extractLsb'_append_extractLsb' (w := 32) (len := 32)

theorem toInt_multVal (a b : Word) :
    ((multVal a b).hi ++ (multVal a b).lo).toInt = a.toInt * b.toInt := by
  have hlo : -2 ^ 62 ≤ a.toInt * b.toInt := BitVec.le_toInt_mul_toInt
  have hhi : a.toInt * b.toInt ≤ 2 ^ 62 := BitVec.toInt_mul_toInt_le
  rw [multVal_hi_append_lo]
  exact BitVec.toInt_ofInt_eq_self (by decide) (by omega) (by omega)

theorem toNat_multuVal (a b : Word) :
    ((multuVal a b).hi ++ (multuVal a b).lo).toNat = a.toNat * b.toNat := by
  rw [multuVal_hi_append_lo]
  exact Nat.mod_eq_of_lt BitVec.toNat_mul_toNat_lt

/-! ## The signed division (R302), an equation for each of its three cases -/

theorem divVal_zero (ovf : HiLo) (a : Word) : divVal ovf a 0#32 = ⟨0#32, 0#32⟩ := if_pos rfl

theorem divVal_overflow (ovf : HiLo) : divVal ovf 0x80000000#32 0xFFFFFFFF#32 = ovf := rfl

/-- A quotient that fits is a 32-bit number, so reducing it and the remainder modulo 2^32 loses nothing. -/
theorem divVal_eq_srem_sdiv (ovf : HiLo) {a b : Word} (hb : b ≠ 0#32)
    (hfit : ¬ (a = 0x80000000#32 ∧ b = 0xFFFFFFFF#32)) : divVal ovf a b = ⟨a.srem b, a.sdiv b⟩ := by
  have hq : (a.sdiv b).toInt = a.toInt.tdiv b.toInt :=
    BitVec.toInt_sdiv_of_ne_or_ne a b (not_and_or.mp hfit)
  have hr : (a.srem b).toInt = a.toInt - (a.sdiv b).toInt * b.toInt := by
    rw [BitVec.toInt_srem, Int.tmod_def, hq, mul_comm]
  simp only [divVal, if_neg hb, if_neg hfit, ← hq, ← hr, BitVec.ofInt_toInt]

/-! ## The two statements -/

/-- Settles O34: a product of two 32-bit numbers fits in 64 bits, signed and unsigned. -/
theorem multiplyResults : Obligations.MultiplyResults := fun _ _ _ =>
  ⟨hiLoResult_of_retireHiLo rfl (toInt_multVal _ _), hiLoResult_of_retireHiLo rfl (toNat_multuVal _ _)⟩

/-- Settles O35, by the three cases of R302: the zero divisor, the overflow, and a quotient that fits. -/
theorem signedDivideResults : Obligations.SignedDivideResults := by
  refine ⟨rfl, rfl, fun s rs rt => hiLoResult_of_retireHiLo rfl ?_⟩
  split_ifs with hzero hovf
  · rw [hzero, divVal_zero]
    exact ⟨rfl, rfl⟩
  · obtain ⟨ha, hb⟩ := hovf
    rw [ha, hb, divVal_overflow]
    exact ⟨rfl, rfl⟩
  · rw [divVal_eq_srem_sdiv _ hzero hovf]
    exact ⟨BitVec.toInt_sdiv_of_ne_or_ne _ _ (not_and_or.mp hovf), BitVec.toInt_srem _ _⟩

end Sys2Proof.MulDiv
end

section
/-! Jumps (spec/43_control.md R412 to R414). An instruction that ends by `jumpTo` has a `ControlResult`, and a
`LinkResult` when it writes its link first, so what is left of the statement is the target: `jtarget` keeps a multiple of
2^28 and fills the 28 bits below it, so the bitwise or is a sum. -/

namespace Sys2Proof.Control

open Sys2Proof.Machine Sys2Proof.Claims

/-! ## Control goes to the delay slot and then to a target (R413, R418) -/

theorem controlResult_of_jumpTo {i : Instr} {s : State} {target : Word}
    (h : exec i s = (s.jumpTo target).succeed) : ControlResult i s target :=
  ⟨_, h.trans (State.succeed_eq _), rfl, rfl, rfl, s.jumpTo_getReg target, rfl, rfl, ⟨rfl, fun _ => rfl⟩, rfl, rfl⟩

theorem linkResult_of_setReg_jumpTo {i : Instr} {s : State} {target : Word} {rd : Reg}
    (h : exec i s = ((s.setReg rd s.link).jumpTo target).succeed) : LinkResult i s target rd := by
  have hregs (r : Reg) := State.setReg_getReg s rd r s.link
  refine ⟨_, h.trans (State.succeed_eq _), rfl, ?_, rfl, hregs, ?_, ?_, ⟨?_, fun _ => ?_⟩, ?_, ?_⟩ <;> simp

/-! ## The target as arithmetic (R412) -/

theorem toNat_and_topFour (a : Word) : (a &&& 0xF0000000#32).toNat = a.toNat / 0x10000000 * 0x10000000 := by
  have hmask : 0xF0000000#32 = BitVec.allOnes 32 <<< 28 := rfl
  rw [hmask, ← BitVec.shiftLeft_ushiftRight, BitVec.toNat_shiftLeft, BitVec.toNat_ushiftRight, Nat.shiftLeft_eq,
    Nat.shiftRight_eq_div_pow]
  omega

theorem toNat_zext32_shiftLeft_two (target : BitVec 26) : (zext32 target <<< 2).toNat = target.toNat * 4 := by
  rw [zext32, BitVec.toNat_shiftLeft, BitVec.toNat_setWidth, Nat.shiftLeft_eq]
  omega

theorem toNat_jtarget (a : Word) (target : BitVec 26) :
    (jtarget a target).toNat = a.toNat / 0x10000000 * 0x10000000 + target.toNat * 4 := by
  have hlow : target.toNat * 4 < 2 ^ 28 := by omega
  rw [jtarget, BitVec.toNat_or, toNat_and_topFour, toNat_zext32_shiftLeft_two, Nat.mul_comm (_ / _)]
  exact (Nat.two_pow_add_eq_or_of_lt hlow _).symm

theorem jtarget_eq_ofNat (a : Word) (target : BitVec 26) :
    jtarget a target = BitVec.ofNat 32 (a.toNat / 0x10000000 * 0x10000000 + target.toNat * 4) := by
  rw [← toNat_jtarget, BitVec.ofNat_toNat, BitVec.setWidth_eq]

/-- Settles O42: J and JAL jump to `jtarget` of the old `nextPc`, which is the sum of R412. -/
theorem jumpResults : Obligations.JumpResults := by
  intro s target
  rw [← jtarget_eq_ofNat]
  exact ⟨controlResult_of_jumpTo rfl, linkResult_of_setReg_jumpTo rfl⟩

end Sys2Proof.Control
end

section
/-! Alignment and overflow errors (spec/60_exceptions.md R602, R603). Each direction of "exactly" has one lemma: an odd
halfword address, or a sum that does not fit, ends the instruction with its error; and every status that an execute
phase answers has its cause, by cases on the instruction. -/

namespace Sys2Proof.ExecuteErrors

open Sys2Proof.Machine Sys2Proof.Claims

/-! ## The overflow primitives as arithmetic (R200, R201): the sign rule is the range of the exact result -/

theorem saddOverflow_iff (a b : Word) : a.saddOverflow b = true ↔ ¬ FitsWord (a.toInt + b.toInt) := by
  simp only [BitVec.saddOverflow, Bool.or_eq_true, decide_eq_true_eq]
  omega

theorem ssubOverflow_iff (a b : Word) : a.ssubOverflow b = true ↔ ¬ FitsWord (a.toInt - b.toInt) := by
  simp only [BitVec.ssubOverflow, Bool.or_eq_true, decide_eq_true_eq]
  omega

theorem addOvf_eq_none_iff (a b : Word) : addOvf a b = none ↔ ¬ FitsWord (a.toInt + b.toInt) := by
  rw [← saddOverflow_iff, BitVec.saddOverflow_eq]
  simp [addOvf]

theorem subOvf_eq_none_iff (a b : Word) : subOvf a b = none ↔ ¬ FitsWord (a.toInt - b.toInt) := by
  rw [← ssubOverflow_iff, BitVec.ssubOverflow_eq]
  simp only [subOvf, ite_eq_left_iff, reduceCtorEq]
  cases a.msb <;> cases b.msb <;> simp

/-- The immediate of ADDI is added at its signed value (R106, R230). -/
theorem addOvf_simm_eq_none_iff (a : Word) (imm : Half) :
    addOvf a (simm imm) = none ↔ ¬ FitsWord (a.toInt + imm.toInt) := by
  rw [addOvf_eq_none_iff, Alu.toInt_simm]

/-! ## The condition gives the error -/

theorem exec_of_odd_halfwordAddress {i : Instr} {s : State} {ea : Word} (h : halfwordAddress s i = some ea)
    (hodd : ea.toNat % 2 = 1) : exec i s = s.raise .invalidAlignment := by
  have hlane : ¬ halfAligned (laneOf ea) = true := by rw [halfAligned_iff]; omega
  cases i with
  | lh | lhu | sh => obtain rfl := Option.some.inj h; exact if_neg hlane
  | _ => cases h

theorem exec_of_exactSum_not_fitsWord {i : Instr} {s : State} {z : Int} (h : exactSum s i = some z)
    (hz : ¬ FitsWord z) : exec i s = s.raise .arithmeticOverflow := by
  cases i with
  | add => obtain rfl := Option.some.inj h; rw [exec, execAdd, (addOvf_eq_none_iff ..).2 hz]
  | sub => obtain rfl := Option.some.inj h; rw [exec, execSub, (subOvf_eq_none_iff ..).2 hz]
  | addi => obtain rfl := Option.some.inj h; rw [exec, execAddi, (addOvf_simm_eq_none_iff ..).2 hz]
  | _ => cases h

/-- An error raised in the state an instruction starts from is an `ErrorResult` with no request. -/
theorem errorResult_of_raise {i : Instr} {s : State} {e : Status} (h : exec i s = s.raise e) :
    ErrorResult i s e [] := by
  rw [ErrorResult, List.append_nil]
  exact h

/-! ## The error comes from the condition -/

/-- The status a meaning answers. -/
def statusOf : Outcome → Option Status
  | .next t => t.status
  | .fault _ => none
  | .refused _ => none

/-- The statuses `i` can answer from `s`: InvalidAlignment and ArithmeticOverflow only under the conditions of R602 and
R603. -/
inductive StatusCause (i : Instr) (s : State) : Option Status → Prop where
  | success : StatusCause i s (some .success)
  | invalidInstruction : StatusCause i s (some .invalidInstruction)
  | memoryError : StatusCause i s (some (.memoryError .memErr))
  | invalidAlignment (ea : Word) (h : halfwordAddress s i = some ea) (hodd : ea.toNat % 2 = 1) :
      StatusCause i s (some .invalidAlignment)
  | arithmeticOverflow (z : Int) (h : exactSum s i = some z) (hz : ¬ FitsWord z) :
      StatusCause i s (some .arithmeticOverflow)

section
variable {i : Instr} {s : State}

theorem StatusCause.of_branch (taken : Bool) (offset : Half) : StatusCause i s (statusOf (s.branch taken offset)) := by
  rw [State.branch_eq_jumpTo]; exact .success

theorem StatusCause.of_branchAndLink (taken : Bool) (offset : Half) (r : Reg) :
    StatusCause i s (statusOf (s.branchAndLink taken offset r)) := by
  rw [State.branchAndLink_eq_jumpTo]; exact .success

theorem StatusCause.of_load (rt : Reg) (offset : Half) (base : Reg) (value : Word → BitVec 2 → Word) :
    StatusCause i s (statusOf (s.load rt offset base value)) := by
  cases ha : s.mem.accepts (align4 (s.ea base offset))
  · rw [State.load_refused ha]; exact .memoryError
  · rw [State.load_ok ha]; exact .success

theorem StatusCause.of_storeLane (offset : Half) (base : Reg) (put : Word → BitVec 2 → Word) :
    StatusCause i s (statusOf (s.storeLane offset base put)) := by
  cases ha : s.mem.accepts (align4 (s.ea base offset))
  · rw [State.storeLane_refused ha]; exact .memoryError
  · rw [State.storeLane_ok ha]; exact .success

theorem StatusCause.of_writeWord (a v : Word) : StatusCause i s (statusOf (s.writeWord a v State.tail)) := by
  cases ha : s.mem.accepts a
  · rw [State.writeWord_refused ha]; exact .memoryError
  · rw [State.writeWord_ok ha]; exact .success

/-- ADD, SUB and ADDI raise ArithmeticOverflow only when their primitive fails. -/
theorem StatusCause.of_sum {rd : Reg} {r : Option Word} {z : Int} (h : exactSum s i = some z)
    (he : exec i s = match r with | some v => (s.setReg rd v).tail | none => s.raise .arithmeticOverflow)
    (hr : r = none ↔ ¬ FitsWord z) :
    StatusCause i s (statusOf (exec i s)) := by
  rw [he]
  cases r with
  | some v => exact .success
  | none => exact .arithmeticOverflow z h (hr.1 rfl)

/-- LH, LHU and SH raise InvalidAlignment only at an odd address. -/
theorem StatusCause.of_halfAligned {ea : Word} {o : Outcome} (h : halfwordAddress s i = some ea)
    (ho : StatusCause i s (statusOf o)) :
    StatusCause i s (statusOf (if halfAligned (laneOf ea) then o else s.raise .invalidAlignment)) := by
  split
  case isTrue => exact ho
  case isFalse hlane =>
    rw [halfAligned_iff] at hlane
    exact .invalidAlignment ea h (by omega)

end

/-- Every status an execute phase answers has its cause. -/
theorem exec_statusCause (i : Instr) (s : State) : StatusCause i s (statusOf (exec i s)) := by
  cases i with
  | add => exact .of_sum rfl rfl (addOvf_eq_none_iff ..)
  | sub => exact .of_sum rfl rfl (subOvf_eq_none_iff ..)
  | addi => exact .of_sum rfl rfl (addOvf_simm_eq_none_iff ..)
  | divu =>
    rw [exec, execDivu]; split
    · exact .invalidInstruction
    · exact .success
  | addu | subu | and | or | xor | slt | sltu | sll | srl | sra | sllv | srlv | srav | addiu | slti | sltiu | andi | ori
  | xori | lui | mult | multu | div | mfhi | mflo | mthi | mtlo | j | jal | jr | jalr => exact .success
  | beq | bne | blez | bgtz | bltz | bgez => exact .of_branch ..
  | bltzal | bgezal => exact .of_branchAndLink ..
  | lb | lbu | lw | lwl | lwr =>
    simp only [exec, execLb, execLbu, execLw, execLwl, execLwr]
    exact .of_load ..
  | lh | lhu =>
    simp only [exec, execLh, execLhu]
    exact .of_halfAligned rfl (.of_load ..)
  | sb => rw [exec, execSb]; exact .of_storeLane ..
  | sh => rw [exec, execSh]; exact .of_halfAligned rfl (.of_storeLane ..)
  | sw => rw [exec, execSw]; exact .of_writeWord ..

theorem statusCause_of_exec {i : Instr} {s t : State} {e : Status} (h : exec i s = .next t) (ht : t.status = some e) :
    StatusCause i s (some e) := by
  have hcause := exec_statusCause i s
  rwa [h, statusOf, ht] at hcause

/-! ## The two statements -/

/-- Settles O16: an address 1 or 3 modulo 4 is an odd one, and the alignment is checked before any request (R505). -/
theorem invalidAlignmentExactly : Obligations.InvalidAlignmentExactly := by
  refine ⟨fun i s ea h hodd => ?raised, fun i s t h ht => ?cause⟩
  case raised => exact errorResult_of_raise (exec_of_odd_halfwordAddress h (by omega))
  case cause =>
    cases statusCause_of_exec h ht with
    | invalidAlignment ea hea hodd => exact ⟨ea, hea, by omega⟩

/-- Settles O17: the sign rule of R200 and R201 fails exactly when the exact result is out of range. -/
theorem arithmeticOverflowExactly : Obligations.ArithmeticOverflowExactly := by
  refine ⟨fun i s z h hz => ?raised, fun i s t h ht => ?cause⟩
  case raised => exact errorResult_of_raise (exec_of_exactSum_not_fitsWord h hz)
  case cause =>
    cases statusCause_of_exec h ht with
    | arithmeticOverflow z hsum hz => exact ⟨z, hsum, hz⟩

end Sys2Proof.ExecuteErrors
end

section
/-! Register access through the host port (spec/10_state.md R21, R35; spec/60_exceptions.md R605). An index in 0..31 is
the number of one register, so the two calls are a read and a write of that register; any other index names none. -/

namespace Sys2Proof.HostAccess

open Sys2Proof.Machine Sys2Proof.Claims

/-! ## Indices and registers -/

theorem exists_reg_of_index {i : Int} (h : 0 ≤ i ∧ i < 32) : ∃ r : Reg, (r.toNat : Int) = i :=
  ⟨BitVec.ofNat 5 i.toNat, by rw [BitVec.toNat_ofNat]; omega⟩

theorem index_inj {q r : Reg} : (q.toNat : Int) = r.toNat ↔ q = r := Int.natCast_inj.trans BitVec.toNat_inj

theorem hostIndex_toNat (r : Reg) : hostIndex r.toNat = some r := by
  rw [hostIndex, if_pos (by omega), Int.toNat_natCast, BitVec.ofNat_toNat, BitVec.setWidth_eq]

theorem hostIndex_outside {i : Int} (h : ¬ (0 ≤ i ∧ i < 32)) : hostIndex i = none := if_neg h

/-! ## The two calls -/

theorem getRegister_toNat (s : State) (r : Reg) : hostCall (.getRegister r.toNat) s = (.value (s.getReg r), s) := by
  rw [hostCall, hostIndex_toNat]

theorem setRegister_toNat (s : State) (r : Reg) (v : Word) :
    hostCall (.setRegister r.toNat v) s = (.none, s.setReg r v) := by
  rw [hostCall, hostIndex_toNat]

theorem getRegister_outside (s : State) {i : Int} (h : ¬ (0 ≤ i ∧ i < 32)) :
    hostCall (.getRegister i) s = (.invalidArgument, s) := by
  rw [hostCall, hostIndex_outside h]

theorem setRegister_outside (s : State) {i : Int} (h : ¬ (0 ≤ i ∧ i < 32)) (v : Word) :
    hostCall (.setRegister i v) s = (.invalidArgument, s) := by
  rw [hostCall, hostIndex_outside h]

/-- Settles O56, by the rule for a register read after a register write (R14). -/
theorem hostRegisterAccess : Obligations.HostRegisterAccess := by
  refine fun s i j v => ⟨fun hi hj => ?readBack, fun hi => ?outside, ?unchanged⟩
  case readBack =>
    obtain ⟨r, rfl⟩ := exists_reg_of_index hi
    obtain ⟨q, rfl⟩ := exists_reg_of_index hj
    have hzero : (q.toNat : Int) = 0 ↔ q = 0#5 := index_inj (r := 0#5)
    rw [setRegister_toNat, getRegister_toNat, getRegister_toNat, State.setReg_getReg]
    simp only [hzero, index_inj, apply_ite HostReply.value]
  case outside => exact ⟨setRegister_outside s hi v, getRegister_outside s hi⟩
  case unchanged =>
    by_cases hi : 0 ≤ i ∧ i < 32
    · obtain ⟨r, rfl⟩ := exists_reg_of_index hi
      rw [getRegister_toNat]
    · rw [getRegister_outside s hi]

end Sys2Proof.HostAccess
end

section
/-! The instruction word (spec/30_encoding.md R102 to R104, R113). A layout of fields equals a word exactly when the
word's fields are those of the layout, so an accepted word is its instruction's encoding as soon as every field that the
instruction does not hold is known: the reserved ones are 0 in strict mode, the others select the decoder's branch. -/

namespace Sys2Proof.RoundTrip

open Sys2Proof.Machine Sys2Proof.Claims Sys2Proof.Laws Sys2Proof.Encoding

/-! ## Layouts and fields -/

/-- Two fields side by side are one field. -/
theorem extractLsb'_append {w : Word} {lo m n : Nat} :
    w.extractLsb' (lo + n) m ++ w.extractLsb' lo n = w.extractLsb' lo (m + n) :=
  BitVec.extractLsb'_append_extractLsb'_eq_extractLsb' rfl

theorem rWord_eq_iff {rs rt rd : Reg} {sa : BitVec 5} {f : BitVec 6} {w : Word} : rWord rs rt rd sa f = w ↔
    opcodeOf w = 0#6 ∧ rsOf w = rs ∧ rtOf w = rt ∧ rdOf w = rd ∧ shamtOf w = sa ∧ functOf w = f := by
  constructor
  · rintro rfl
    simp
  · rintro ⟨hop, rfl, rfl, rfl, rfl, rfl⟩
    rw [rWord, ← hop, append_fields]

theorem iWord_eq_iff {op : BitVec 6} {rs rt : Reg} {imm : Half} {w : Word} : iWord op rs rt imm = w ↔
    opcodeOf w = op ∧ rsOf w = rs ∧ rtOf w = rt ∧ immOf w = imm := by
  constructor
  · rintro rfl
    simp
  · rintro ⟨rfl, rfl, rfl, rfl⟩
    calc _ = w.extractLsb' (0 + 16 + 5 + 5) 6 ++ w.extractLsb' (0 + 16 + 5) 5 ++ w.extractLsb' (0 + 16) 5 ++
          w.extractLsb' 0 16 := rfl
      _ = w.extractLsb' 0 (6 + 5 + 5 + 16) := by simp only [extractLsb'_append]
      _ = w := BitVec.extractLsb'_eq_self

theorem jWord_eq_iff {op : BitVec 6} {target : BitVec 26} {w : Word} : jWord op target = w ↔
    opcodeOf w = op ∧ targetOf w = target := by
  constructor
  · rintro rfl
    simp
  · rintro ⟨rfl, rfl⟩
    calc _ = w.extractLsb' 0 (6 + 26) := extractLsb'_append
      _ = w := BitVec.extractLsb'_eq_self

/-! ## From the instruction to the word and back -/

/-- Settles O1: the decoder reads back the fields that the layout wrote, and those that the row ignores were written
as 0. -/
theorem decodeOfEncodeIsTheInstruction : Obligations.DecodeOfEncodeIsTheInstruction := by
  intro p i hwf
  cases i with
  | sll | srl | sra => simp [encode, decode, decodeSpecial, checkReserved]
  | sllv | srlv | srav | mfhi | mflo | mthi | mtlo =>
    rw [Instr.wf] at hwf
    simp [encode, decode, decodeSpecial, checkPresent, checkShamt, checkReserved, hwf]
  | add | addu | sub | subu | and | or | xor | slt | sltu | mult | multu | div | divu | jr | jalr =>
    simp [encode, decode, decodeSpecial, checkShamt, checkReserved]
  | bltz | bgez | bltzal | bgezal => simp [encode, decode, decodeRegimm]
  | blez | bgtz | lui => simp [encode, decode, checkReserved]
  | addi | addiu | slti | sltiu | andi | ori | xori | beq | bne | j | jal | lb | lbu | lh | lhu | lw | lwl | lwr | sb | sh
  | sw => simp [encode, decode]

/-- The same for a word known to be an encoding. -/
theorem decode_of_encode_eq {p : Params} {i : Instr} {w : Word} (hw : encode i = w) (hwf : i.wf p = true) :
    decode p w = .ok i := hw ▸ decodeOfEncodeIsTheInstruction p i hwf

/-- Settles O4: each example word is the encoding of its instruction, which every machine has. -/
theorem specExampleWordsDecode : Obligations.SpecExampleWordsDecode := fun _ =>
  ⟨decode_of_encode_eq (by decide) rfl, decode_of_encode_eq (by decide) rfl, decode_of_encode_eq (by decide) rfl,
    decode_of_encode_eq (by decide) rfl, decode_of_encode_eq (by decide) rfl, decode_of_encode_eq (by decide) rfl,
    decode_of_encode_eq (by decide) rfl, decode_of_encode_eq (by decide) rfl, decode_of_encode_eq (by decide) rfl,
    decode_of_encode_eq (by decide) rfl, decode_of_encode_eq (by decide) rfl⟩

/-! ## From the word to the instruction and back, in strict mode -/

/-- Every instruction that `d` answers is encoded as `w`. -/
def LosesNoBit (w : Word) (d : Except DecodeError Instr) : Prop := ∀ i, d = .ok i → encode i = w

section
variable {p : Params} {w : Word} {zero : Bool} {i : Instr}

theorem LosesNoBit.of_error {e : DecodeError} : LosesNoBit w (.error e) := nofun

theorem LosesNoBit.of_ok (h : encode i = w) : LosesNoBit w (.ok i) := by
  rintro j hj
  obtain rfl := Except.ok.inj hj
  exact h

theorem LosesNoBit.of_checkReserved (hs : p.strictReservedFields = true) (h : zero = true → encode i = w) :
    LosesNoBit w (checkReserved p zero i) := by
  intro j hj
  obtain ⟨hz, rfl⟩ := checkReserved_eq_ok.1 hj
  exact h (hz hs)

theorem LosesNoBit.of_checkShamt (hs : p.strictReservedFields = true)
    (h : shamtOf w = 0#5 → zero = true → encode i = w) : LosesNoBit w (checkShamt p w zero i) := by
  intro j hj
  obtain ⟨⟨hsa, hz⟩, rfl⟩ := checkShamt_eq_ok.1 hj
  exact h hsa (hz hs)

theorem LosesNoBit.of_checkPresent {present : Bool} {d : Except DecodeError Instr} (h : LosesNoBit w d) :
    LosesNoBit w (checkPresent present d) := by
  cases present
  · exact .of_error
  · exact h

end

theorem decodeSpecial_losesNoBit {p : Params} {w : Word} (hs : p.strictReservedFields = true)
    (hop : opcodeOf w = 0#6) : LosesNoBit w (decodeSpecial p w) := by
  unfold decodeSpecial
  split
  case h_26 => exact .of_error
  -- SLL, SRL, SRA: `shamt` is an operand
  case h_1 | h_2 | h_3 =>
    rename_i hf
    exact .of_checkReserved hs fun hz => by simpa [encode, rWord_eq_iff, hop, hf] using hz
  -- Tier D, behind the gate of R114: the variable shifts reserve no field, the HI/LO moves do
  case h_4 | h_5 | h_6 =>
    rename_i hf
    exact .of_checkPresent (.of_checkShamt hs fun hsa _ => by simp [encode, rWord_eq_iff, hop, hf, hsa])
  case h_9 | h_10 | h_11 | h_12 =>
    rename_i hf
    exact .of_checkPresent (.of_checkShamt hs fun hsa hz => by simpa [encode, rWord_eq_iff, hop, hf, hsa] using hz)
  -- JR, JALR, MULT, MULTU, DIV, DIVU
  case h_7 | h_8 | h_13 | h_14 | h_15 | h_16 =>
    rename_i hf
    exact .of_checkShamt hs fun hsa hz => by simpa [encode, rWord_eq_iff, hop, hf, hsa] using hz
  -- the register-register rows, which have no reserved field but `shamt`
  all_goals
    rename_i hf
    exact .of_checkShamt hs fun hsa _ => by simp [encode, rWord_eq_iff, hop, hf, hsa]

theorem decodeRegimm_losesNoBit {w : Word} (hop : opcodeOf w = 1#6) : LosesNoBit w (decodeRegimm w) := by
  unfold decodeRegimm
  split
  case h_5 => exact .of_error
  all_goals
    rename_i hrt
    exact .of_ok (by simp [encode, iWord_eq_iff, hop, hrt])

/-- Settles O2, by the decoder's branches: the opcode, funct or selector chose the branch, `shamt` and the reserved
fields were checked to be 0, and the instruction holds the rest. -/
theorem strictDecodeLosesNoBit : Obligations.StrictDecodeLosesNoBit := by
  intro p w i hs
  suffices h : LosesNoBit w (decode p w) from h i
  unfold decode
  split
  case h_1 hop => exact decodeSpecial_losesNoBit hs hop
  case h_2 hop => exact decodeRegimm_losesNoBit hop
  case h_27 => exact .of_error
  -- J, JAL
  case h_3 | h_4 =>
    rename_i hop
    exact .of_ok (by simp [encode, jWord_eq_iff, hop])
  -- BLEZ, BGTZ, LUI
  case h_7 | h_8 | h_16 =>
    rename_i hop
    exact .of_checkReserved hs fun hz => by simpa [encode, iWord_eq_iff, hop] using hz
  all_goals
    rename_i hop
    exact .of_ok (by simp [encode, iWord_eq_iff, hop])

end Sys2Proof.RoundTrip
end

section
/-! Facts about every instruction, each by cases on the shape of its execute phase (`exec_shape`): the registers, HI, LO
and memory it may change, where control goes, the status it answers and the requests it makes. The two memory facts,
`exec_mem` and `exec_requests`, are what the invariants of a step rest on. -/

namespace Sys2Proof.Frame

open Sys2Proof.Machine Sys2Proof.Claims

/-! ## General registers (R21, R23) -/

/-- Settles O25: the one register written is `destReg`'s. -/
theorem onlyTheNamedRegisterChanges : Obligations.OnlyTheNamedRegisterChanges := by
  intro i s t h r hr
  have of_setReg {rd : Reg} (hd : destReg i = some rd) (u : State) (v : Word) :
      (u.setReg rd v).getReg r = u.getReg r :=
    State.setReg_getReg_ne u (fun heq => hr (hd.trans (congrArg some heq.symm))) v
  cases exec_shape i s with
  | register rd v hd _ _ he => cases he.symm.trans h; exact of_setReg hd s v
  | link rd target _ hd _ he => cases he.symm.trans h; exact of_setReg hd s s.link
  | load rt offset base v hd _ _ _ _ he => cases he.symm.trans h; exact of_setReg hd (s.issue _) v
  | divideByZero _ _ _ _ he => cases he.symm.trans h; split <;> rfl
  | hilo _ _ _ _ _ he | overflow _ _ he | misaligned _ _ _ _ he | control _ _ _ _ he | readRefused _ _ _ _ _ he
  | storeLane _ _ _ _ _ he | storeWord _ _ _ _ _ he | writeRefused _ _ _ _ _ he => cases he.symm.trans h; rfl

/-- No execute phase writes the cell of register 0. -/
theorem exec_regs_zero {i : Instr} {s t : State} (h : exec i s = .next t) : t.regs[0] = s.regs[0] := by
  cases exec_shape i s with
  | register rd v _ _ _ he => cases he.symm.trans h; exact State.setReg_regs_zero s rd v
  | link rd target _ _ _ he => cases he.symm.trans h; exact State.setReg_regs_zero s rd s.link
  | load rt offset base v _ _ _ _ _ he => cases he.symm.trans h; exact State.setReg_regs_zero (s.issue _) rt v
  | divideByZero _ _ _ _ he => cases he.symm.trans h; split <;> rfl
  | hilo _ _ _ _ _ he | overflow _ _ he | misaligned _ _ _ _ he | control _ _ _ _ he | readRefused _ _ _ _ _ he
  | storeLane _ _ _ _ _ he | storeWord _ _ _ _ _ he | writeRefused _ _ _ _ _ he => cases he.symm.trans h; rfl

/-! ## HI and LO (R28) -/

/-- Settles O26: the two shapes that write HI or LO are those of the instructions `writesHiLo` names. -/
theorem onlyMulDivAndMovesChangeHiLo : Obligations.OnlyMulDivAndMovesChangeHiLo := by
  intro i s t h hw
  cases exec_shape i s with
  | hilo _ _ hw' _ _ _ => simp [hw] at hw'
  | divideByZero _ _ hi _ _ => simp [hi, writesHiLo] at hw
  | register rd v _ _ _ he => cases he.symm.trans h; exact ⟨s.setReg_hi rd v, s.setReg_lo rd v⟩
  | link rd target _ _ _ he => cases he.symm.trans h; exact ⟨s.setReg_hi rd s.link, s.setReg_lo rd s.link⟩
  | load rt offset base v _ _ _ _ _ he =>
    cases he.symm.trans h
    exact ⟨(s.issue _).setReg_hi rt v, (s.issue _).setReg_lo rt v⟩
  | overflow _ _ he | misaligned _ _ _ _ he | control _ _ _ _ he | readRefused _ _ _ _ _ he
  | storeLane _ _ _ _ _ he | storeWord _ _ _ _ _ he | writeRefused _ _ _ _ _ he =>
    cases he.symm.trans h; exact ⟨rfl, rfl⟩

/-! ## Memory and parameters (R11, R70, R75) -/

theorem exec_params {i : Instr} {s t : State} (h : exec i s = .next t) : t.params = s.params := by
  cases exec_shape i s with
  | register rd v _ _ _ he => cases he.symm.trans h; exact s.setReg_params rd v
  | link rd target _ _ _ he => cases he.symm.trans h; exact s.setReg_params rd s.link
  | load rt offset base v _ _ _ _ _ he => cases he.symm.trans h; exact (s.issue _).setReg_params rt v
  | divideByZero _ _ _ _ he => cases he.symm.trans h; split <;> rfl
  | hilo _ _ _ _ _ he | overflow _ _ he | misaligned _ _ _ _ he | control _ _ _ _ he | readRefused _ _ _ _ _ he
  | storeLane _ _ _ _ _ he | storeWord _ _ _ _ _ he | writeRefused _ _ _ _ _ he => cases he.symm.trans h; rfl

theorem dataOperand_of_laneStore {i : Instr} {offset : Half} {base : Reg}
    (hi : ∃ rt, i = .sb rt offset base ∨ i = .sh rt offset base) :
    dataOperand i = some (offset, base) ∧ isStore i = true := by
  obtain ⟨rt, rfl | rfl⟩ := hi <;> exact ⟨rfl, rfl⟩

/-- All that an execute phase does to memory: a store that the memory accepts writes the containing aligned word, and
nothing else touches it. -/
theorem exec_mem {i : Instr} {s t : State} (h : exec i s = .next t) : t.mem = s.mem ∨
    ∃ offset base v, dataOperand i = some (offset, base) ∧ isStore i = true ∧
      s.mem.accepts (align4 (s.ea base offset)) = true ∧
      t.mem = s.mem.setBytes (align4 (s.ea base offset)).toNat (encodeWord v) := by
  cases exec_shape i s with
  | storeLane offset base v hi ha he =>
    cases he.symm.trans h
    obtain ⟨hm, hst⟩ := dataOperand_of_laneStore hi
    exact .inr ⟨offset, base, v, hm, hst, ha, rfl⟩
  | storeWord rt offset base hi ha he =>
    cases he.symm.trans h
    subst hi
    exact .inr ⟨offset, base, _, rfl, rfl, ha, rfl⟩
  | register rd v _ _ _ he => cases he.symm.trans h; exact .inl (s.setReg_mem rd v)
  | link rd target _ _ _ he => cases he.symm.trans h; exact .inl (s.setReg_mem rd s.link)
  | load rt offset base v _ _ _ _ _ he => cases he.symm.trans h; exact .inl ((s.issue _).setReg_mem rt v)
  | divideByZero _ _ _ _ he => cases he.symm.trans h; left; split <;> rfl
  | hilo _ _ _ _ _ he | overflow _ _ he | misaligned _ _ _ _ he | control _ _ _ _ he | readRefused _ _ _ _ _ he
  | writeRefused _ _ _ _ _ he => cases he.symm.trans h; exact .inl rfl

/-- Settles O27: the one write goes to the four bytes from the aligned effective address. -/
theorem onlyStoresChangeMemory : Obligations.OnlyStoresChangeMemory := by
  intro i s t h
  refine ⟨exec_params h, ?_⟩
  rcases exec_mem h with hmem | ⟨offset, base, v, hop, hst, -, hmem⟩
  · simp [SameBytes, hmem]
  · refine ⟨by rw [hmem, Memory.setBytes_size], fun hno => by simp [hst] at hno, fun offset' base' hop' a ha => ?_⟩
    obtain ⟨rfl, rfl⟩ := Prod.mk.inj (Option.some.inj (hop.symm.trans hop'))
    rw [hmem, Memory.setBytes_byteAt_outside _ _ _ _ ha]

/-- An execute phase keeps the canonical form: a store writes only where the memory has room. -/
theorem exec_mem_wf {i : Instr} {s t : State} (h : exec i s = .next t) (hwf : s.mem.wf = true) : t.mem.wf = true := by
  rcases exec_mem h with hmem | ⟨offset, base, v, -, -, ha, hmem⟩
  · rwa [hmem]
  · rw [hmem]
    exact Memory.setBytes_wf _ _ _ ((Memory.accepts_iff ..).1 ha).2 hwf

/-! ## Requests (R61, R72, R75) -/

/-- A data request: aligned, and of 4 bytes. -/
def AlignedWord (q : Request) : Prop := q.addr.toNat % 4 = 0 ∧ q.len = 4

theorem alignedWord_read (a : Word) : AlignedWord (.read (align4 a) 4) :=
  ⟨by simp only [Request.addr, align4_toNat]; omega, rfl⟩

theorem alignedWord_write (a v : Word) : AlignedWord (.write (align4 a) 4 v) :=
  ⟨by simp only [Request.addr, align4_toNat]; omega, rfl⟩

/-- An execute phase adds only aligned requests of 4 bytes to those made before it. -/
theorem exec_requests {i : Instr} {s t : State} (h : exec i s = .next t) :
    ∃ qs, t.requests = s.requests ++ qs ∧ ∀ q ∈ qs, AlignedWord q := by
  have none_added {u : State} (hu : u.requests = s.requests) :
      ∃ qs, u.requests = s.requests ++ qs ∧ ∀ q ∈ qs, AlignedWord q := ⟨[], by simpa using hu, by simp⟩
  cases exec_shape i s with
  | register rd v _ _ _ he => cases he.symm.trans h; exact none_added (s.setReg_requests rd v)
  | link rd target _ _ _ he => cases he.symm.trans h; exact none_added (s.setReg_requests rd s.link)
  | divideByZero _ _ _ _ he => cases he.symm.trans h; exact none_added (by dsimp only; split <;> rfl)
  | hilo _ _ _ _ _ he | overflow _ _ he | misaligned _ _ _ _ he | control _ _ _ _ he =>
    cases he.symm.trans h; exact none_added rfl
  | load rt offset base v _ _ _ _ _ he =>
    cases he.symm.trans h
    exact ⟨_, (s.issue _).setReg_requests rt v, by simp [alignedWord_read]⟩
  | readRefused _ _ _ _ _ he => cases he.symm.trans h; exact ⟨_, rfl, by simp [alignedWord_read]⟩
  | storeWord _ _ _ _ _ he | writeRefused _ _ _ _ _ he =>
    cases he.symm.trans h; exact ⟨_, rfl, by simp [alignedWord_write]⟩
  | storeLane offset base v _ _ he =>
    cases he.symm.trans h
    exact ⟨_, List.append_assoc _ [_] [_], by simp [alignedWord_read, alignedWord_write]⟩

/-- Settles O24: of the shapes that succeed, those with no memory operand add no request, and the others add those of
their row of R75. -/
theorem requestsFollowTheTable : Obligations.RequestsFollowTheTable := by
  intro i s t h ht
  cases exec_shape i s with
  | register rd v _ _ hm he => cases he.symm.trans h; simp [hm]
  | link rd target _ _ hm he => cases he.symm.trans h; simp [hm]
  | hilo _ _ _ _ hm he => cases he.symm.trans h; simp [hm]
  | control _ _ _ hm he => cases he.symm.trans h; simp [hm]
  | overflow _ _ he | misaligned _ _ _ _ he | divideByZero _ _ _ _ he | readRefused _ _ _ _ _ he
  | writeRefused _ _ _ _ _ he => cases he.symm.trans h; simp at ht
  | load rt offset base v _ _ hs hm _ he =>
    cases he.symm.trans h
    refine ⟨by simp [hm], fun offset' base' hm' => ?_⟩
    obtain ⟨rfl, rfl⟩ := Prod.mk.inj (Option.some.inj (hm.symm.trans hm'))
    refine ⟨fun _ => (s.issue _).setReg_requests rt v, ?sw, ?sbOrSh⟩
    case sw => rintro ⟨_, rfl⟩; cases hs
    case sbOrSh => rintro ⟨_, rfl | rfl⟩ <;> cases hs
  | storeLane offset base v hi _ he =>
    cases he.symm.trans h
    obtain ⟨hm, hst⟩ := dataOperand_of_laneStore hi
    refine ⟨by simp [hm], fun offset' base' hm' => ?_⟩
    obtain ⟨rfl, rfl⟩ := Prod.mk.inj (Option.some.inj (hm.symm.trans hm'))
    refine ⟨by simp [hst], ?sw, fun _ => ⟨v, List.append_assoc _ [_] [_]⟩⟩
    case sw => rintro ⟨_, rfl⟩; simp at hi
  | storeWord rt offset base hi _ he =>
    cases he.symm.trans h
    subst hi
    refine ⟨nofun, fun offset' base' hm' => ?_⟩
    obtain ⟨rfl, rfl⟩ := Prod.mk.inj (Option.some.inj hm')
    exact ⟨nofun, fun _ => ⟨_, rfl⟩, by simp⟩

end Sys2Proof.Frame
end

section
/-! What a step answers (spec/40_step.md R141 to R150; spec/60_exceptions.md R600, R601, R604) and what every step keeps
(spec/10_state.md R21). A step is a fetch that fails or an execute phase (`step_cases`), so each fact is one about the
fetch and one about the shapes of the execute phase. -/

namespace Sys2Proof.StepFacts

open Sys2Proof.Machine Sys2Proof.Claims Sys2Proof.Frame

/-! ## Fetch and decode -/

/-- Settles O10: `step_cases` with the other two cases excluded. -/
theorem stepRunsTheDecodedInstruction : Obligations.StepRunsTheDecodedInstruction := fun _ _ =>
  FailedStep.step_of_fetchedInstr

/-- Settles O12: the two cases of `step_cases` in which nothing is executed. -/
theorem fetchAndDecodeFailuresChangeNothing : Obligations.FetchAndDecodeFailuresChangeNothing := by
  refine fun s => ⟨fun hrefused => ?_, fun haccepts ⟨e, herror⟩ => ?_⟩
  · rcases step_cases s with ⟨-, hstep⟩ | ⟨-, hacc, -⟩ | ⟨-, hacc, -⟩
    · exact hstep
    · simp [hrefused] at hacc
    · simp [hrefused] at hacc
  · rcases step_cases s with ⟨hacc, -⟩ | ⟨-, -, -, hstep⟩ | ⟨i, -, hok, -⟩
    · simp [haccepts] at hacc
    · exact hstep
    · simp [herror] at hok

/-! ## The status -/

theorem exec_answers_status (i : Instr) (s : State) : ∃ t st, exec i s = .next t ∧ t.status = some st := by
  cases exec_shape i s with
  | register _ _ _ _ _ he | hilo _ _ _ _ _ he | overflow _ _ he | misaligned _ _ _ _ he | divideByZero _ _ _ _ he
  | control _ _ _ _ he | link _ _ _ _ _ he | load _ _ _ _ _ _ _ _ _ he | readRefused _ _ _ _ _ he
  | storeLane _ _ _ _ _ he | storeWord _ _ _ _ _ he | writeRefused _ _ _ _ _ he => exact ⟨_, _, he, rfl⟩

/-- Settles O11: a failed fetch and every shape of an execute phase go to a next state with a status. -/
theorem everyStepAnswersAStatus : Obligations.EveryStepAnswersAStatus := by
  intro s
  rcases step_cases s with ⟨-, hstep⟩ | ⟨-, -, -, hstep⟩ | ⟨i, -, -, hstep⟩
  · exact ⟨_, _, hstep, rfl⟩
  · exact ⟨_, _, hstep, rfl⟩
  · rw [hstep]; exact exec_answers_status i _

/-- Settles O20: the two control shapes succeed, and every other belongs to the common-tail class. -/
theorem controlTransfersAlwaysSucceed : Obligations.ControlTransfersAlwaysSucceed := by
  intro i s hc
  cases exec_shape i s with
  | control _ _ _ _ he | link _ _ _ _ _ he => exact ⟨_, he, rfl⟩
  | divideByZero _ _ hi _ _ | storeWord _ _ _ hi _ _ | writeRefused _ _ _ hi _ _ => subst hi; cases hc
  | storeLane _ _ _ hi _ _ => obtain ⟨rt, rfl | rfl⟩ := hi <;> cases hc
  | register _ _ _ hc' _ _ | hilo _ _ _ hc' _ _ | overflow hc' _ _ | misaligned _ _ hc' _ _
  | load _ _ _ _ _ hc' _ _ _ _ | readRefused _ _ hc' _ _ _ => simp [hc] at hc'

/-- Settles O19: a shape that succeeds ends with `advance(4)`, or with `jumpTo` in the own-control-transfer class. -/
theorem successFollowsTheSequencer : Obligations.SuccessFollowsTheSequencer := by
  intro i s t h ht
  cases exec_shape i s with
  | register rd v _ _ _ he =>
    cases he.symm.trans h
    exact ⟨s.setReg_nextPc rd v, fun _ => congrArg (· + 4#32) (s.setReg_nextPc rd v)⟩
  | load rt offset base v _ _ _ _ _ he =>
    cases he.symm.trans h
    exact ⟨(s.issue _).setReg_nextPc rt v, fun _ => congrArg (· + 4#32) ((s.issue _).setReg_nextPc rt v)⟩
  | hilo _ _ _ _ _ he | storeLane _ _ _ _ _ he | storeWord _ _ _ _ _ he =>
    cases he.symm.trans h; exact ⟨rfl, fun _ => rfl⟩
  | control target hc _ _ he => cases he.symm.trans h; exact ⟨rfl, by simp [hc]⟩
  | link rd target hc _ _ he => cases he.symm.trans h; exact ⟨s.setReg_nextPc rd s.link, by simp [hc]⟩
  | overflow _ _ he | misaligned _ _ _ _ he | divideByZero _ _ _ _ he | readRefused _ _ _ _ _ he
  | writeRefused _ _ _ _ _ he => cases he.symm.trans h; simp at ht

/-- Where a step that succeeds in a common-tail instruction goes (R147). -/
theorem commonTail_of_succeeds {s t : State} {i : Instr} (hfetch : FetchedInstr s i) (h : Succeeds s t)
    (hc : ownControl i = false) : t.pc = s.nextPc ∧ t.nextPc = s.nextPc + 4#32 := by
  obtain ⟨hstep, ht⟩ := h
  obtain ⟨hpc, hnext⟩ :=
    successFollowsTheSequencer i _ t ((FailedStep.step_of_fetchedInstr hfetch).symm.trans hstep) ht
  exact ⟨hpc, hnext hc⟩

/-- Only DIVU by zero ends an execute phase with InvalidInstruction. -/
theorem exec_invalidInstruction {i : Instr} {s t : State} (h : exec i s = .next t)
    (ht : t.status = some .invalidInstruction) : ∃ rs rt, i = .divu rs rt ∧ s.getReg rt = 0#32 := by
  cases exec_shape i s with
  | divideByZero rs rt hi hz _ => exact ⟨rs, rt, hi, hz⟩
  | register _ _ _ _ _ he | hilo _ _ _ _ _ he | overflow _ _ he | misaligned _ _ _ _ he
  | control _ _ _ _ he | link _ _ _ _ _ he | load _ _ _ _ _ _ _ _ _ he | readRefused _ _ _ _ _ he
  | storeLane _ _ _ _ _ he | storeWord _ _ _ _ _ he | writeRefused _ _ _ _ _ he => cases he.symm.trans h; simp at ht

/-- Settles O15: a decode failure raises it at the fetch, and DIVU by zero in the execute phase. -/
theorem invalidInstructionExactly : Obligations.InvalidInstructionExactly := by
  intro s t h
  constructor
  · intro ht
    rcases step_cases s with ⟨-, hstep⟩ | ⟨e, hacc, herror, -⟩ | ⟨i, hacc, hok, hstep⟩
    · cases hstep.symm.trans h; simp at ht
    · exact ⟨hacc, .inl ⟨e, herror⟩⟩
    · obtain ⟨rs, rt, rfl, hz⟩ := exec_invalidInstruction (hstep.symm.trans h) ht
      exact ⟨hacc, .inr ⟨rs, rt, ⟨hacc, hok⟩, hz⟩⟩
  · rintro ⟨hacc, herror | ⟨rs, rt, hfetch, hz⟩⟩
    · cases ((fetchAndDecodeFailuresChangeNothing s).2 hacc herror).symm.trans h
      rfl
    · cases ((FailedStep.step_of_fetchedInstr hfetch).trans (exec_divu_zero rs hz)).symm.trans h
      rfl

/-- The last request went to an address that `m` refuses. -/
def LastRefused (m : Memory) (qs : List Request) : Prop := ∃ q, qs.getLast? = some q ∧ m.accepts q.addr = false

/-- An execute phase whose earlier requests were accepted ends with MemoryError exactly when its own last request was
refused: only the two refused shapes do. -/
theorem exec_memoryError_iff {i : Instr} {s t : State} (h : exec i s = .next t)
    (hs : ¬ LastRefused s.mem s.requests) :
    t.status = some (.memoryError .memErr) ↔ LastRefused s.mem t.requests := by
  cases exec_shape i s with
  | register rd v _ _ _ he =>
    cases he.symm.trans h; simpa using hs
  | link rd target _ _ _ he => cases he.symm.trans h; simpa using hs
  | divideByZero _ _ _ _ he => cases he.symm.trans h; split <;> simpa using hs
  | hilo _ _ _ _ _ he | overflow _ _ he | misaligned _ _ _ _ he | control _ _ _ _ he =>
    cases he.symm.trans h; simpa using hs
  | load _ _ _ _ _ _ _ _ ha he | storeWord _ _ _ _ ha he =>
    cases he.symm.trans h; simp [LastRefused, Request.addr, ha]
  | storeLane _ _ _ _ ha he =>
    cases he.symm.trans h; simp [State.afterStoreLane, LastRefused, Request.addr, ha]
  | readRefused _ _ _ _ ha he | writeRefused _ _ _ _ ha he =>
    cases he.symm.trans h; simp [LastRefused, Request.addr, ha]

/-- Settles O18: the fetch is the only request before the execute phase. -/
theorem memoryErrorExactly : Obligations.MemoryErrorExactly := by
  intro s t h
  rcases step_cases s with ⟨hacc, hstep⟩ | ⟨-, hacc, -, hstep⟩ | ⟨i, hacc, -, hstep⟩
  · cases hstep.symm.trans h; simp [Request.addr, hacc]
  · cases hstep.symm.trans h; simp [Request.addr, hacc]
  · exact (exec_memoryError_iff (hstep.symm.trans h) (by simp [LastRefused, Request.addr, hacc]) :)

/-! ## The requests -/

/-- Settles O23: the fetch is recorded first, and an execute phase adds aligned words only. -/
theorem requestsAreFetchThenAlignedWords : Obligations.RequestsAreFetchThenAlignedWords := by
  intro s t h
  rcases step_cases s with ⟨-, hstep⟩ | ⟨-, -, -, hstep⟩ | ⟨i, -, -, hstep⟩
  · cases hstep.symm.trans h; exact ⟨[], rfl, nofun⟩
  · cases hstep.symm.trans h; exact ⟨[], rfl, nofun⟩
  · exact exec_requests (hstep.symm.trans h)

/-! ## The invariants -/

theorem step_keeps_regs_zero {s t : State} (h : step s = .next t) : t.regs[0] = s.regs[0] := by
  rcases step_cases s with ⟨-, hstep⟩ | ⟨-, -, -, hstep⟩ | ⟨i, -, -, hstep⟩
  · cases hstep.symm.trans h; rfl
  · cases hstep.symm.trans h; rfl
  · exact (exec_regs_zero (hstep.symm.trans h) :)

theorem step_keeps_mem_wf {s t : State} (h : step s = .next t) (hwf : s.mem.wf = true) : t.mem.wf = true := by
  rcases step_cases s with ⟨-, hstep⟩ | ⟨-, -, -, hstep⟩ | ⟨i, -, -, hstep⟩
  · cases hstep.symm.trans h; exact hwf
  · cases hstep.symm.trans h; exact hwf
  · exact exec_mem_wf (hstep.symm.trans h) hwf

theorem step_keeps_hostInv {s t : State} (hinv : HostInv s) (h : step s = .next t) : HostInv t := by
  obtain ⟨hzero, hwf⟩ := hinv
  exact ⟨(step_keeps_regs_zero h).trans hzero, step_keeps_mem_wf h hwf⟩

/-- Settles O21: `HostInv` is kept, and the requests of the step itself all ask for 4 bytes. -/
theorem stepKeepsTheInvariant : Obligations.StepKeepsTheInvariant := by
  intro s t ⟨hzero, hwf, _⟩ h
  obtain ⟨hzero', hwf'⟩ := step_keeps_hostInv ⟨hzero, hwf⟩ h
  obtain ⟨qs, hreq, hqs⟩ := requestsAreFetchThenAlignedWords s t h
  refine ⟨hzero', hwf', fun q hq => ?_⟩
  rw [hreq, List.mem_cons] at hq
  obtain rfl | hq := hq
  · rfl
  · exact (hqs q hq).2

/-- Settles O22: every register is 0 and no request is recorded; the reset memory lists nothing. -/
theorem resetHasTheInvariant : Obligations.ResetHasTheInvariant :=
  ⟨⟨by decide, by decide, nofun⟩, fun _ _ hwf => ⟨by simp [createCore, zeroState], hwf, nofun⟩⟩

end Sys2Proof.StepFacts
end

section
/-! The host port (spec/10_state.md R21, R33 to R36; spec/70_reset_and_hazards.md R700 to R702). Of the calls, only
`set_register`, `reset` and `step` touch the registers or memory, and each keeps `HostInv`. -/

namespace Sys2Proof.HostRuns

open Sys2Proof.Machine Sys2Proof.Claims Sys2Proof.Frame Sys2Proof.StepFacts

/-! ## The invariant -/

theorem zeroState_hostInv (p : Params) {m : Memory} (hwf : m.wf = true) : HostInv (zeroState p m) :=
  ⟨by simp [zeroState], hwf⟩

theorem hostCall_keeps_hostInv {s : State} (hinv : HostInv s) (c : HostCall) : HostInv (hostCall c s).2 := by
  obtain ⟨hzero, hwf⟩ := hinv
  cases c with
  | reset => exact zeroState_hostInv _ hwf
  | getRegister i => rw [hostCall]; split <;> exact ⟨hzero, hwf⟩
  | setRegister i v =>
    rw [hostCall]; split
    · exact ⟨(s.setReg_regs_zero _ v).trans hzero, (congrArg Memory.wf (s.setReg_mem _ v)).trans hwf⟩
    · exact ⟨hzero, hwf⟩
  | setPc v => rw [hostCall, setPc]; split <;> exact ⟨hzero, hwf⟩
  | getPc | setDebugLevel => exact ⟨hzero, hwf⟩
  | step =>
    obtain ⟨t, st, hstep, -⟩ := everyStepAnswersAStatus s
    simp only [hostCall, hstep, replyOf]
    exact step_keeps_hostInv ⟨hzero, hwf⟩ hstep

theorem hostCalls_keep_hostInv (cs : List HostCall) {s : State} (hinv : HostInv s) : HostInv (hostCalls cs s) := by
  induction cs generalizing s with
  | nil => exact hinv
  | cons c cs ih => exact ih (hostCall_keeps_hostInv hinv c)

/-- Register 0 reads 0 from every state (R21). -/
theorem getRegister_zero (s : State) : (hostCall (.getRegister 0) s).1 = .value 0#32 :=
  congrArg Prod.fst (HostAccess.getRegister_toNat s 0#5)

/-- Settles O58: one call at a time, then by induction on the sequence of calls. -/
theorem hostNeverSeesRegisterZeroChange : Obligations.HostNeverSeesRegisterZeroChange := by
  refine ⟨fun s hinv => ⟨getRegister_zero s, hostCall_keeps_hostInv hinv⟩, fun p m hwf => ?_⟩
  have hcreated : HostInv (createCore p m) := zeroState_hostInv p hwf
  refine ⟨hcreated, ?_⟩
  rintro t ⟨cs, rfl⟩
  exact ⟨hostCalls_keep_hostInv cs hcreated, getRegister_zero _⟩

end Sys2Proof.HostRuns
end

section
/-! Trapping arithmetic, variable shifts and immediates (spec/41_alu.md R200 to R204, R230 to R237). Each ends by
writing one register through the common tail, so what is left is the value: an exact sum in range, the low five bits of a shift
amount, and the two extensions of an immediate (R106). -/

namespace Sys2Proof.AluOperands

open Sys2Proof.Machine Sys2Proof.Claims Sys2Proof.Alu Sys2Proof.ExecuteErrors

/-! ## Exact sums in range (R200, R201) -/

theorem addOvf_eq_some {a b : Word} (h : FitsWord (a.toInt + b.toInt)) :
    addOvf a b = some (BitVec.ofInt 32 (a.toInt + b.toInt)) := by
  have hsome : addOvf a b ≠ none := fun hnone => (addOvf_eq_none_iff a b).1 hnone h
  rw [BitVec.ofInt_add, BitVec.ofInt_toInt, BitVec.ofInt_toInt]
  exact (ite_eq_or_eq ..).resolve_left hsome

theorem subOvf_eq_some {a b : Word} (h : FitsWord (a.toInt - b.toInt)) :
    subOvf a b = some (BitVec.ofInt 32 (a.toInt - b.toInt)) := by
  have hsome : subOvf a b ≠ none := fun hnone => (subOvf_eq_none_iff a b).1 hnone h
  rw [Int.sub_eq_add_neg, BitVec.ofInt_add, BitVec.ofInt_neg, BitVec.ofInt_toInt, BitVec.ofInt_toInt,
    ← BitVec.sub_eq_add_neg]
  exact (ite_eq_or_eq ..).resolve_left hsome

theorem addOvf_simm_eq_some {a : Word} {imm : Half} (h : FitsWord (a.toInt + imm.toInt)) :
    addOvf a (simm imm) = some (BitVec.ofInt 32 (a.toInt + imm.toInt)) := by
  rw [← toInt_simm] at h ⊢
  exact addOvf_eq_some h

/-- Settles O29: the sum fits, so the primitive answers it. -/
theorem trappingAluResultsInRange : Obligations.TrappingAluResultsInRange := by
  refine fun s rd rs rt imm => ⟨fun hfit => ?add, fun hfit => ?sub, fun hfit => ?addi⟩ <;>
    apply registerResult_of_setReg_tail
  case add => rw [exec, execAdd, addOvf_eq_some hfit]
  case sub => rw [exec, execSub, subOvf_eq_some hfit]
  case addi => rw [exec, execAddi, addOvf_simm_eq_some hfit]

/-! ## Variable shifts (R222 to R224) -/

theorem toNat_vsa (v : Word) : (vsa v).toNat = v.toNat % 32 := by simp [vsa]

/-- Settles O32: the constant shifts' arithmetic at the amount of R222. -/
theorem variableShiftResults : Obligations.VariableShiftResults := by
  intro s rd rt rs
  rw [← toNat_vsa]
  refine ⟨?sllv, ?srlv, ?srav⟩ <;> apply registerResult_of_setReg_tail
  case sllv => rw [← sllVal_eq]; rfl
  case srlv => rw [← srlVal_eq]; rfl
  case srav => rw [← sraVal_eq]; rfl

/-! ## Immediates (R106) -/

theorem add_simm_eq (a : Word) (imm : Half) : a + simm imm = BitVec.ofInt 32 (a.toInt + imm.toInt) := by
  rw [← toInt_simm, BitVec.ofInt_add, BitVec.ofInt_toInt, BitVec.ofInt_toInt]

theorem zext32_eq_ofNat {n : Nat} (v : BitVec n) : zext32 v = BitVec.ofNat 32 v.toNat := (BitVec.ofNat_toNat 32 v).symm

theorem zimm_eq (imm : Half) : zimm imm = BitVec.ofNat 32 imm.toNat := zext32_eq_ofNat imm

theorem luimm_eq (imm : Half) : luimm imm = BitVec.ofNat 32 (imm.toNat * 65536) := by
  apply BitVec.eq_of_toNat_eq
  rw [luimm, BitVec.toNat_append, Nat.shiftLeft_eq]
  simp
  omega

/-- Settles O33, by the three immediate operands. -/
theorem immediateResults : Obligations.ImmediateResults := by
  intro s rt rs imm
  refine ⟨?addiu, ?andi, ?ori, ?xori, ?lui⟩ <;> apply registerResult_of_setReg_tail
  case addiu => rw [← add_simm_eq]; rfl
  case andi => rw [← zimm_eq]; rfl
  case ori => rw [← zimm_eq]; rfl
  case xori => rw [← zimm_eq]; rfl
  case lui => rw [← luimm_eq]; rfl

end Sys2Proof.AluOperands
end

section
/-! Unsigned divide and the HI/LO moves (spec/42_muldiv.md R303, R313 to R317). -/

namespace Sys2Proof.HiLoMoves

open Sys2Proof.Machine Sys2Proof.Claims Sys2Proof.Alu Sys2Proof.MulDiv

theorem divuVal_of_ne (a : Word) {b : Word} (h : b ≠ 0#32) : divuVal a b = ⟨a % b, a / b⟩ := by
  rw [divuVal, if_neg h, ← BitVec.toNat_umod, ← BitVec.toNat_udiv]
  simp only [BitVec.ofNat_toNat, BitVec.setWidth_eq]

/-- Settles O36, by the quotient and remainder of `BitVec`. -/
theorem unsignedDivideResults : Obligations.UnsignedDivideResults := by
  intro s rs rt hne
  have hexec : exec (.divu rs rt) s = s.retireHiLo ⟨s.getReg rs % s.getReg rt, s.getReg rs / s.getReg rt⟩ := by
    rw [exec, execDivu, if_neg hne, divuVal_of_ne _ hne]
  exact hiLoResult_of_retireHiLo hexec ⟨BitVec.toNat_udiv, BitVec.toNat_umod⟩

/-- Settles O37, by the one branch of DIVU that raises. -/
theorem unsignedDivideByZeroTraps : Obligations.UnsignedDivideByZeroTraps := by
  refine fun s rs rt hz => ⟨fun hcommits => ?_, fun hkeeps => ?_⟩
  · rw [exec_divu_zero rs hz, if_pos hcommits]; rfl
  · rw [exec_divu_zero rs hz, hkeeps]; rfl

/-- Settles O38: a move to one half of the pair retires it with the other half as it was. -/
theorem hiLoMoveResults : Obligations.HiLoMoveResults := fun s _ rs =>
  ⟨registerResult_of_setReg_tail rfl, registerResult_of_setReg_tail rfl,
    hiLoResult_of_retireHiLo (v := ⟨s.getReg rs, s.lo⟩) rfl ⟨rfl, rfl⟩,
    hiLoResult_of_retireHiLo (v := ⟨s.hi, s.getReg rs⟩) rfl ⟨rfl, rfl⟩⟩

end Sys2Proof.HiLoMoves
end

section
/-! Branches, register jumps and delay slots (spec/43_control.md R400 to R411, R415, R416; spec/40_step.md R153;
spec/70_reset_and_hazards.md R704). A branch is a jump to one of two targets, so what is left of each result is its
condition and its displacement. -/

namespace Sys2Proof.Branches

open Sys2Proof.Machine Sys2Proof.Claims Sys2Proof.Control Sys2Proof.StepFacts

/-! ## Displacement and conditions -/

/-- The displacement is four times the signed offset (R402). -/
theorem boff_eq (offset : Half) : boff offset = BitVec.ofInt 32 (offset.toInt * 4) := by
  have hfour : BitVec.twoPow 32 2 = BitVec.ofInt 32 4 := rfl
  rw [← Alu.toInt_simm, BitVec.ofInt_mul, BitVec.ofInt_toInt, ← hfour, ← BitVec.shiftLeft_eq_mul_twoPow]
  rfl

section
variable {i : Instr} {s : State} {taken : Bool} {offset : Half} {P : Prop} [Decidable P]

/-- A branch taken when `P`. -/
theorem controlResult_of_branch (h : exec i s = s.branch taken offset) (htaken : taken = true ↔ P) :
    ControlResult i s (s.nextPc + if P then BitVec.ofInt 32 (offset.toInt * 4) else 4#32) := by
  simp only [← boff_eq, ← htaken]
  exact controlResult_of_jumpTo (h.trans (State.branch_eq_jumpTo ..))

/-- A branch taken unless `P`. -/
theorem controlResult_of_branch_unless (h : exec i s = s.branch taken offset) (htaken : taken = true ↔ ¬ P) :
    ControlResult i s (s.nextPc + if P then 4#32 else BitVec.ofInt 32 (offset.toInt * 4)) := by
  rw [← ite_not]
  exact controlResult_of_branch h htaken

theorem linkResult_of_branchAndLink (h : exec i s = s.branchAndLink taken offset linkReg) (htaken : taken = true ↔ P) :
    LinkResult i s (s.nextPc + if P then BitVec.ofInt 32 (offset.toInt * 4) else 4#32) 31#5 := by
  simp only [← boff_eq, ← htaken]
  exact linkResult_of_setReg_jumpTo (h.trans (State.branchAndLink_eq_jumpTo ..))

theorem linkResult_of_branchAndLink_unless (h : exec i s = s.branchAndLink taken offset linkReg)
    (htaken : taken = true ↔ ¬ P) :
    LinkResult i s (s.nextPc + if P then 4#32 else BitVec.ofInt 32 (offset.toInt * 4)) 31#5 := by
  rw [← ite_not]
  exact linkResult_of_branchAndLink h htaken

end

/-- The test of BLTZ and BLTZAL is the sign bit. -/
theorem negative_iff_msb (v : Word) : decide (v.toInt < 0) = true ↔ v.msb = true := by rw [BitVec.msb_eq_toInt]

/-- The test of BGEZ and BGEZAL is its complement. -/
theorem nonnegative_iff_not_msb (v : Word) : decide (0 ≤ v.toInt) = true ↔ ¬ v.msb = true := by
  rw [← negative_iff_msb, decide_eq_true_iff, decide_eq_true_iff, Int.not_lt]

/-! ## The results -/

/-- Settles O39: BNE is taken unless BEQ is. -/
theorem equalityBranchResults : Obligations.EqualityBranchResults := fun _ _ _ _ =>
  ⟨controlResult_of_branch rfl decide_eq_true_iff, controlResult_of_branch_unless rfl decide_eq_true_iff⟩

/-- Settles O40: BGTZ is taken unless BLEZ is, and BGEZ unless BLTZ is. -/
theorem signBranchResults : Obligations.SignBranchResults := fun _ _ _ =>
  ⟨controlResult_of_branch rfl decide_eq_true_iff,
    controlResult_of_branch_unless rfl (decide_eq_true_iff.trans Int.not_le.symm),
    controlResult_of_branch rfl (negative_iff_msb _), controlResult_of_branch_unless rfl (nonnegative_iff_not_msb _)⟩

/-- Settles O41: the condition was computed before the link is written. -/
theorem linkingBranchResults : Obligations.LinkingBranchResults := fun _ _ _ =>
  ⟨linkResult_of_branchAndLink rfl (negative_iff_msb _),
    linkResult_of_branchAndLink_unless rfl (nonnegative_iff_not_msb _)⟩

/-- Settles O43: JR and JALR jump to the register as it was before the link. -/
theorem registerJumpResults : Obligations.RegisterJumpResults := fun _ _ _ =>
  ⟨controlResult_of_jumpTo rfl, linkResult_of_setReg_jumpTo rfl⟩

/-! ## Delay slots -/

/-- Settles O44: the second J computes its target from the `nextPc` that the first left. -/
theorem jumpInADelaySlot : Obligations.JumpInADelaySlot := by
  intro s t u first second hfirst hsecond
  cases hfirst
  cases hsecond
  exact ⟨rfl, rfl, rfl, rfl⟩

/-- Settles O45: JR leaves register 31 in `nextPc`, where the delay slot's instruction goes. -/
theorem returnArrivesAfterTheDelaySlot : Obligations.ReturnArrivesAfterTheDelaySlot := by
  intro s t u i hjr ⟨hstep, _⟩ hslot hi hu
  cases (FailedStep.step_of_fetchedInstr hjr).symm.trans hstep
  obtain ⟨hpc, hnext⟩ := commonTail_of_succeeds hslot hu hi
  exact ⟨rfl, hpc, hnext⟩

end Sys2Proof.Branches
end

section
/-! Words as their four bytes (spec/20_memory.md R67, R69; spec/44_loadstore.md R501, R511, R512). Every mask and shift
of the lane operations is one by whole bytes, so each operation is an equation between `decodeWord`s. -/

namespace Sys2Proof.ByteLanes

open Sys2Proof.Machine Sys2Proof.Claims Sys2Proof.RoundTrip

/-! ## The codec (R67) -/

theorem toNat_append_byte {n : Nat} (x : BitVec n) (v : Byte) : (x ++ v).toNat = x.toNat * 256 + v.toNat := by
  rw [BitVec.toNat_append, ← Nat.shiftLeft_add_eq_or_of_lt v.isLt, Nat.shiftLeft_eq]

theorem toNat_decodeWord (b : WordBytes) :
    (decodeWord b).toNat = ((b.b0.toNat * 256 + b.b1.toNat) * 256 + b.b2.toNat) * 256 + b.b3.toNat := by
  rw [decodeWord, toNat_append_byte, toNat_append_byte, toNat_append_byte]

theorem decodeWord_encodeWord (v : Word) : decodeWord (encodeWord v) = v :=
  calc decodeWord (encodeWord v) = v.extractLsb' (0 + 8 + 8 + 8) 8 ++ v.extractLsb' (0 + 8 + 8) 8 ++
        v.extractLsb' (0 + 8) 8 ++ v.extractLsb' 0 8 := rfl
    _ = v.extractLsb' 0 (8 + 8 + 8 + 8) := by simp only [extractLsb'_append]
    _ = v := BitVec.extractLsb'_eq_self

theorem encodeWord_decodeWord (b : WordBytes) : encodeWord (decodeWord b) = b := by
  obtain ⟨b0, b1, b2, b3⟩ := b
  rw [encodeWord, WordBytes.mk.injEq]
  refine ⟨?_, ?_, ?_, ?_⟩
  all_goals
    apply BitVec.eq_of_toNat_eq
    simp only [BitVec.extractLsb'_toNat, Nat.shiftRight_eq_div_pow, toNat_decodeWord]
    omega

/-! ## Lanes read (R501 to R503) -/

theorem byteLane_zero (w : Word) : byteLane w 0#2 = (encodeWord w).b0 := rfl
theorem byteLane_one (w : Word) : byteLane w 1#2 = (encodeWord w).b1 := rfl
theorem byteLane_two (w : Word) : byteLane w 2#2 = (encodeWord w).b2 := rfl
theorem byteLane_three (w : Word) : byteLane w 3#2 = (encodeWord w).b3 := rfl

theorem halfLane_zero (w : Word) : halfLane w 0#2 = (encodeWord w).b0 ++ (encodeWord w).b1 :=
  (extractLsb'_append (lo := 16) (m := 8) (n := 8)).symm

theorem halfLane_two (w : Word) : halfLane w 2#2 = (encodeWord w).b2 ++ (encodeWord w).b3 :=
  (extractLsb'_append (lo := 0) (m := 8) (n := 8)).symm

/-- Settles O9: each lane is a field of `encode_word`, the inverse of `decode_word`. -/
theorem wordCodecIsBigEndian : Obligations.WordCodecIsBigEndian := by
  refine ⟨decodeWord_encodeWord, encodeWord_decodeWord, fun b => ?_⟩
  simp only [byteLane_zero, byteLane_one, byteLane_two, byteLane_three, halfLane_zero, halfLane_two,
    encodeWord_decodeWord, and_self]

/-! ## Masks, shifts and extensions by whole bytes -/

theorem decodeWord_and (a b : WordBytes) :
    decodeWord a &&& decodeWord b = decodeWord ⟨a.b0 &&& b.b0, a.b1 &&& b.b1, a.b2 &&& b.b2, a.b3 &&& b.b3⟩ := by
  unfold decodeWord
  rw [BitVec.and_append, BitVec.and_append, BitVec.and_append]

theorem decodeWord_or (a b : WordBytes) :
    decodeWord a ||| decodeWord b = decodeWord ⟨a.b0 ||| b.b0, a.b1 ||| b.b1, a.b2 ||| b.b2, a.b3 ||| b.b3⟩ := by
  unfold decodeWord
  rw [BitVec.or_append, BitVec.or_append, BitVec.or_append]

theorem decodeWord_shiftLeft_8 (b : WordBytes) : decodeWord b <<< 8 = decodeWord ⟨b.b1, b.b2, b.b3, 0#8⟩ := by
  apply BitVec.eq_of_toNat_eq
  simp only [BitVec.toNat_shiftLeft, Nat.shiftLeft_eq, toNat_decodeWord, BitVec.toNat_zero]
  omega

theorem decodeWord_shiftRight_8 (b : WordBytes) : decodeWord b >>> 8 = decodeWord ⟨0#8, b.b0, b.b1, b.b2⟩ := by
  apply BitVec.eq_of_toNat_eq
  simp only [BitVec.toNat_ushiftRight, Nat.shiftRight_eq_div_pow, toNat_decodeWord, BitVec.toNat_zero]
  omega

theorem decodeWord_shiftLeft_16 (b : WordBytes) : decodeWord b <<< 16 = decodeWord ⟨b.b2, b.b3, 0#8, 0#8⟩ := by
  rw [BitVec.shiftLeft_add _ 8 8, decodeWord_shiftLeft_8, decodeWord_shiftLeft_8]

theorem decodeWord_shiftLeft_24 (b : WordBytes) : decodeWord b <<< 24 = decodeWord ⟨b.b3, 0#8, 0#8, 0#8⟩ := by
  rw [BitVec.shiftLeft_add _ 16 8, decodeWord_shiftLeft_16, decodeWord_shiftLeft_8]

theorem decodeWord_shiftRight_16 (b : WordBytes) : decodeWord b >>> 16 = decodeWord ⟨0#8, 0#8, b.b0, b.b1⟩ := by
  rw [BitVec.shiftRight_add _ 8 8, decodeWord_shiftRight_8, decodeWord_shiftRight_8]

theorem decodeWord_shiftRight_24 (b : WordBytes) : decodeWord b >>> 24 = decodeWord ⟨0#8, 0#8, 0#8, b.b0⟩ := by
  rw [BitVec.shiftRight_add _ 16 8, decodeWord_shiftRight_16, decodeWord_shiftRight_8]

theorem zext32_byte (v : Byte) : zext32 v = decodeWord ⟨0#8, 0#8, 0#8, v⟩ := by
  apply BitVec.eq_of_toNat_eq
  simp only [zext32, BitVec.toNat_setWidth, toNat_decodeWord, BitVec.toNat_zero]
  omega

theorem zext32_half (hi lo : Byte) : zext32 (hi ++ lo) = decodeWord ⟨0#8, 0#8, hi, lo⟩ := by
  apply BitVec.eq_of_toNat_eq
  simp only [zext32, BitVec.toNat_setWidth, toNat_append_byte, toNat_decodeWord, BitVec.toNat_zero]
  omega

theorem and_full_byte (x : Byte) : x &&& 0xFF#8 = x := BitVec.and_allOnes

/-! ## Lanes written (R501) -/

section
variable (b : WordBytes) (v hi lo : Byte)

theorem putByte_zero : putByte (decodeWord b) 0#2 v = decodeWord { b with b0 := v } := by
  have hmask : ~~~(0x000000FF#32 <<< byteShift 0#2) = decodeWord ⟨0x00#8, 0xFF#8, 0xFF#8, 0xFF#8⟩ := by decide
  have hv : zext32 v <<< byteShift 0#2 = decodeWord ⟨v, 0#8, 0#8, 0#8⟩ := by
    rw [zext32_byte]; exact decodeWord_shiftLeft_24 _
  rw [putByte, hmask, hv, decodeWord_and, decodeWord_or]
  simp [and_full_byte]

theorem putByte_one : putByte (decodeWord b) 1#2 v = decodeWord { b with b1 := v } := by
  have hmask : ~~~(0x000000FF#32 <<< byteShift 1#2) = decodeWord ⟨0xFF#8, 0x00#8, 0xFF#8, 0xFF#8⟩ := by decide
  have hv : zext32 v <<< byteShift 1#2 = decodeWord ⟨0#8, v, 0#8, 0#8⟩ := by
    rw [zext32_byte]; exact decodeWord_shiftLeft_16 _
  rw [putByte, hmask, hv, decodeWord_and, decodeWord_or]
  simp [and_full_byte]

theorem putByte_two : putByte (decodeWord b) 2#2 v = decodeWord { b with b2 := v } := by
  have hmask : ~~~(0x000000FF#32 <<< byteShift 2#2) = decodeWord ⟨0xFF#8, 0xFF#8, 0x00#8, 0xFF#8⟩ := by decide
  have hv : zext32 v <<< byteShift 2#2 = decodeWord ⟨0#8, 0#8, v, 0#8⟩ := by
    rw [zext32_byte]; exact decodeWord_shiftLeft_8 _
  rw [putByte, hmask, hv, decodeWord_and, decodeWord_or]
  simp [and_full_byte]

theorem putByte_three : putByte (decodeWord b) 3#2 v = decodeWord { b with b3 := v } := by
  have hmask : ~~~(0x000000FF#32 <<< byteShift 3#2) = decodeWord ⟨0xFF#8, 0xFF#8, 0xFF#8, 0x00#8⟩ := by decide
  have hv : zext32 v <<< byteShift 3#2 = decodeWord ⟨0#8, 0#8, 0#8, v⟩ :=
    (BitVec.shiftLeft_zero _).trans (zext32_byte v)
  rw [putByte, hmask, hv, decodeWord_and, decodeWord_or]
  simp [and_full_byte]

theorem putHalf_zero : putHalf (decodeWord b) 0#2 (hi ++ lo) = decodeWord { b with b0 := hi, b1 := lo } := by
  have hmask : 0x0000FFFF#32 = decodeWord ⟨0x00#8, 0x00#8, 0xFF#8, 0xFF#8⟩ := by decide
  rw [putHalf, if_pos (by rfl : 0#2 = (0 : BitVec 2)), hmask, zext32_half, decodeWord_shiftLeft_16,
    decodeWord_and, decodeWord_or]
  simp [and_full_byte]

theorem putHalf_two : putHalf (decodeWord b) 2#2 (hi ++ lo) = decodeWord { b with b2 := hi, b3 := lo } := by
  have hmask : 0xFFFF0000#32 = decodeWord ⟨0xFF#8, 0xFF#8, 0x00#8, 0x00#8⟩ := by decide
  rw [putHalf, if_neg (by decide), hmask, zext32_half, decodeWord_and, decodeWord_or]
  simp [and_full_byte]

end

/-! ## The merges of LWL and LWR (R511, R512) -/

section
variable (old b : WordBytes)

theorem lwlMerge_one : lwlMerge (decodeWord old) (decodeWord b) 1#2 = decodeWord ⟨b.b1, b.b2, b.b3, old.b3⟩ := by
  have hmask : 0x000000FF#32 = decodeWord ⟨0x00#8, 0x00#8, 0x00#8, 0xFF#8⟩ := by decide
  change decodeWord b <<< 8 ||| decodeWord old &&& 0x000000FF#32 = _
  rw [hmask, decodeWord_shiftLeft_8, decodeWord_and, decodeWord_or]
  simp [and_full_byte]

theorem lwlMerge_two : lwlMerge (decodeWord old) (decodeWord b) 2#2 = decodeWord ⟨b.b2, b.b3, old.b2, old.b3⟩ := by
  have hmask : 0x0000FFFF#32 = decodeWord ⟨0x00#8, 0x00#8, 0xFF#8, 0xFF#8⟩ := by decide
  change decodeWord b <<< 16 ||| decodeWord old &&& 0x0000FFFF#32 = _
  rw [hmask, decodeWord_shiftLeft_16, decodeWord_and, decodeWord_or]
  simp [and_full_byte]

theorem lwlMerge_three : lwlMerge (decodeWord old) (decodeWord b) 3#2 = decodeWord ⟨b.b3, old.b1, old.b2, old.b3⟩ := by
  have hmask : 0x00FFFFFF#32 = decodeWord ⟨0x00#8, 0xFF#8, 0xFF#8, 0xFF#8⟩ := by decide
  change decodeWord b <<< 24 ||| decodeWord old &&& 0x00FFFFFF#32 = _
  rw [hmask, decodeWord_shiftLeft_24, decodeWord_and, decodeWord_or]
  simp [and_full_byte]

theorem lwrMerge_zero : lwrMerge (decodeWord old) (decodeWord b) 0#2 = decodeWord ⟨old.b0, old.b1, old.b2, b.b0⟩ := by
  have hmask : 0xFFFFFF00#32 = decodeWord ⟨0xFF#8, 0xFF#8, 0xFF#8, 0x00#8⟩ := by decide
  change decodeWord old &&& 0xFFFFFF00#32 ||| decodeWord b >>> 24 = _
  rw [hmask, decodeWord_shiftRight_24, decodeWord_and, decodeWord_or]
  simp [and_full_byte]

theorem lwrMerge_one : lwrMerge (decodeWord old) (decodeWord b) 1#2 = decodeWord ⟨old.b0, old.b1, b.b0, b.b1⟩ := by
  have hmask : 0xFFFF0000#32 = decodeWord ⟨0xFF#8, 0xFF#8, 0x00#8, 0x00#8⟩ := by decide
  change decodeWord old &&& 0xFFFF0000#32 ||| decodeWord b >>> 16 = _
  rw [hmask, decodeWord_shiftRight_16, decodeWord_and, decodeWord_or]
  simp [and_full_byte]

theorem lwrMerge_two : lwrMerge (decodeWord old) (decodeWord b) 2#2 = decodeWord ⟨old.b0, b.b0, b.b1, b.b2⟩ := by
  have hmask : 0xFF000000#32 = decodeWord ⟨0xFF#8, 0x00#8, 0x00#8, 0x00#8⟩ := by decide
  change decodeWord old &&& 0xFF000000#32 ||| decodeWord b >>> 8 = _
  rw [hmask, decodeWord_shiftRight_8, decodeWord_and, decodeWord_or]
  simp [and_full_byte]

end

end Sys2Proof.ByteLanes
end

section
/-! Loads and stores (spec/44_loadstore.md R500 to R515). One lemma says what a load writes, one what a store leaves in
memory and one what a refused request does; each instruction is then its value in terms of the bytes from the effective
address on. -/

namespace Sys2Proof.LoadStore

open Sys2Proof.Machine Sys2Proof.Claims Sys2Proof.Alu Sys2Proof.AluOperands Sys2Proof.ByteLanes

/-! ## The effective address and its lane (R500) -/

theorem lane_cases : ∀ k : BitVec 2, k = 0#2 ∨ k = 1#2 ∨ k = 2#2 ∨ k = 3#2 := by decide

theorem even_lane_cases {ea : Word} (h : ea.toNat % 2 = 0) : laneOf ea = 0#2 ∨ laneOf ea = 2#2 := by
  simpa [halfAligned] using (halfAligned_iff ea).2 h

theorem toNat_eq_align4_add_lane (ea : Word) : ea.toNat = (align4 ea).toNat + (laneOf ea).toNat := by
  rw [align4_toNat, laneOf_toNat]; omega

/-- A request for a word that does not lie in the memory is refused (R64). -/
theorem refused_outside_memory {s : State} {ea : Word} (hmem : ¬ WordInMemory s ea) :
    s.mem.accepts (align4 ea) = false :=
  Bool.eq_false_iff.2 (mt (Memory.accepts_align4 s.mem ea).1 hmem)

/-! ## Bytes of the containing word (R69) -/

theorem byteLane_bytesAt (m : Memory) (a : Nat) (k : BitVec 2) :
    byteLane (decodeWord (m.bytesAt a)) k = m.byteAt (a + k.toNat) := by
  obtain rfl | rfl | rfl | rfl := lane_cases k
  · rw [byteLane_zero, encodeWord_decodeWord]; rfl
  · rw [byteLane_one, encodeWord_decodeWord]; rfl
  · rw [byteLane_two, encodeWord_decodeWord]; rfl
  · rw [byteLane_three, encodeWord_decodeWord]; rfl

theorem halfLane_bytesAt (m : Memory) (a : Nat) {k : BitVec 2} (hk : k = 0#2 ∨ k = 2#2) :
    halfLane (decodeWord (m.bytesAt a)) k = m.byteAt (a + k.toNat) ++ m.byteAt (a + k.toNat + 1) := by
  obtain rfl | rfl := hk
  · rw [halfLane_zero, encodeWord_decodeWord]; rfl
  · rw [halfLane_two, encodeWord_decodeWord]; rfl

theorem byteLane_at_ea (m : Memory) (ea : Word) :
    byteLane (decodeWord (m.bytesAt (align4 ea).toNat)) (laneOf ea) = m.byteAt ea.toNat := by
  rw [byteLane_bytesAt, ← toNat_eq_align4_add_lane]

theorem halfLane_at_ea (m : Memory) {ea : Word} (heven : ea.toNat % 2 = 0) :
    halfLane (decodeWord (m.bytesAt (align4 ea).toNat)) (laneOf ea) = m.byteAt ea.toNat ++ m.byteAt (ea.toNat + 1) := by
  rw [halfLane_bytesAt m _ (even_lane_cases heven), ← toNat_eq_align4_add_lane]

/-! ## Loads (R505) -/

section
variable {i : Instr} {s : State} {rt base : Reg} {offset : Half}

/-- A load whose word is in the memory writes its value of that word to `rt`. -/
theorem registerResult_of_load {value : Word → BitVec 2 → Word} {v : Word}
    (hmem : WordInMemory s (s.ea base offset)) (h : exec i s = s.load rt offset base value)
    (hv : value (decodeWord (s.mem.bytesAt (align4 (s.ea base offset)).toNat)) (laneOf (s.ea base offset)) = v) :
    RegisterResult i s rt v [.read (align4 (s.ea base offset)) 4] := by
  subst hv
  exact registerResult_of_tail (h.trans (State.load_ok ((Memory.accepts_align4 _ _).2 hmem) rt value))

theorem errorResult_of_load {value : Word → BitVec 2 → Word} (hmem : ¬ WordInMemory s (s.ea base offset))
    (h : exec i s = s.load rt offset base value) :
    ErrorResult i s (.memoryError .memErr) [.read (align4 (s.ea base offset)) 4] :=
  h.trans (State.load_refused (refused_outside_memory hmem) rt value)

theorem errorResult_of_storeLane {put : Word → BitVec 2 → Word} (hmem : ¬ WordInMemory s (s.ea base offset))
    (h : exec i s = s.storeLane offset base put) :
    ErrorResult i s (.memoryError .memErr) [.read (align4 (s.ea base offset)) 4] :=
  h.trans (State.storeLane_refused (refused_outside_memory hmem) put)

end

/-! ## The instructions as loads and stores -/

section
variable (s : State) (rt base : Reg) (offset : Half)

theorem exec_lb : exec (.lb rt offset base) s = s.load rt offset base fun w k =>
    if s.params.lbSignExtend then sext32 (byteLane w k) else zext32 (byteLane w k) := rfl

theorem exec_lbu : exec (.lbu rt offset base) s = s.load rt offset base fun w k => zext32 (byteLane w k) := rfl

theorem exec_lw : exec (.lw rt offset base) s = s.load rt offset base fun w _ => w := rfl

theorem exec_lwl : exec (.lwl rt offset base) s = s.load rt offset base fun w k => lwlMerge (s.getReg rt) w k := rfl

theorem exec_lwr : exec (.lwr rt offset base) s = s.load rt offset base fun w k => lwrMerge (s.getReg rt) w k := rfl

theorem exec_sb : exec (.sb rt offset base) s =
    s.storeLane offset base fun w k => putByte w k ((s.getReg rt).extractLsb' 0 8) := rfl

/-! An even address passes the alignment check. -/

variable {s base offset} (heven : (s.ea base offset).toNat % 2 = 0)
include heven

theorem exec_lh : exec (.lh rt offset base) s = s.load rt offset base fun w k => sext32 (halfLane w k) :=
  if_pos ((halfAligned_iff _).2 heven)

theorem exec_lhu : exec (.lhu rt offset base) s = s.load rt offset base fun w k => zext32 (halfLane w k) :=
  if_pos ((halfAligned_iff _).2 heven)

theorem exec_sh : exec (.sh rt offset base) s =
    s.storeLane offset base fun w k => putHalf w k ((s.getReg rt).extractLsb' 0 16) :=
  if_pos ((halfAligned_iff _).2 heven)

end

/-- Settles O46: the lane of the effective address is the byte there. -/
theorem loadByteResults : Obligations.LoadByteResults := by
  refine fun s rt base offset hmem => ⟨registerResult_of_load hmem (exec_lb ..) ?lb,
    registerResult_of_load hmem (exec_lbu ..) ?lbu⟩
  case lb => rw [byteLane_at_ea, zext32_eq_ofNat]; rfl
  case lbu => rw [byteLane_at_ea, zext32_eq_ofNat]

/-- Settles O47: at an even address the lane is the two bytes there. -/
theorem loadHalfResults : Obligations.LoadHalfResults := by
  refine fun s rt base offset hmem heven => ⟨registerResult_of_load hmem (exec_lh rt heven) ?lh,
    registerResult_of_load hmem (exec_lhu rt heven) ?lhu⟩
  case lh => rw [halfLane_at_ea s.mem heven]; rfl
  case lhu => rw [halfLane_at_ea s.mem heven, zext32_eq_ofNat, toNat_append_byte]

/-- Settles O48: LW's value is the word read. -/
theorem loadWordResult : Obligations.LoadWordResult := fun _ _ _ _ hmem =>
  registerResult_of_load hmem (exec_lw ..) (by rw [align4_toNat]; rfl)

/-- Settles O49, by the four lanes. -/
theorem loadWordLeftResult : Obligations.LoadWordLeftResult := by
  refine fun s rt base offset hmem => registerResult_of_load hmem (exec_lwl ..) ?_
  have hlane : (s.ea base offset).extractLsb' 0 2 = laneOf (s.ea base offset) := rfl
  rw [← decodeWord_encodeWord (s.getReg rt), encodeWord_decodeWord, toNat_eq_align4_add_lane (s.ea base offset), hlane]
  obtain hk | hk | hk | hk := lane_cases (laneOf (s.ea base offset)) <;> rw [hk]
  · rfl
  · exact lwlMerge_one ..
  · exact lwlMerge_two ..
  · exact lwlMerge_three ..

/-- Settles O50, by the four lanes. -/
theorem loadWordRightResult : Obligations.LoadWordRightResult := by
  refine fun s rt base offset hmem => registerResult_of_load hmem (exec_lwr ..) ?_
  have hlane : (s.ea base offset).extractLsb' 0 2 = laneOf (s.ea base offset) := rfl
  rw [← decodeWord_encodeWord (s.getReg rt), encodeWord_decodeWord, ← align4_toNat, hlane]
  obtain hk | hk | hk | hk := lane_cases (laneOf (s.ea base offset)) <;> rw [hk]
  · exact lwrMerge_zero ..
  · exact lwrMerge_one ..
  · exact lwrMerge_two ..
  · rfl

/-! ## Stores -/

/-- The word put back by SB differs from the one read in the byte of its lane alone. -/
theorem byteAt_setBytes_putByte (m : Memory) (a : Nat) (k : BitVec 2) (v : Byte) (c : Nat) :
    (m.setBytes a (encodeWord (putByte (decodeWord (m.bytesAt a)) k v))).byteAt c =
      if c = a + k.toNat then v else m.byteAt c := by
  obtain rfl | rfl | rfl | rfl := lane_cases k
  all_goals
    simp only [putByte_zero, putByte_one, putByte_two, putByte_three, encodeWord_decodeWord, Memory.setBytes_byteAt]
    grind [Memory.bytesAt]

/-- The same of SH, with the two bytes from its lane on. -/
theorem byteAt_setBytes_putHalf (m : Memory) (a : Nat) {k : BitVec 2} (hk : k = 0#2 ∨ k = 2#2) (hi lo : Byte)
    (c : Nat) :
    (m.setBytes a (encodeWord (putHalf (decodeWord (m.bytesAt a)) k (hi ++ lo)))).byteAt c =
      if c = a + k.toNat then hi else if c = a + k.toNat + 1 then lo else m.byteAt c := by
  obtain rfl | rfl := hk
  all_goals
    simp only [putHalf_zero, putHalf_two, encodeWord_decodeWord, Memory.setBytes_byteAt]
    grind [Memory.bytesAt]

/-- SB or SH whose word is in the memory: the bytes are those that the word put back holds. -/
theorem storeResult_of_storeLane {i : Instr} {s : State} {base : Reg} {offset : Half} {put : Word → BitVec 2 → Word}
    {byteAfter : Nat → Byte} (hmem : WordInMemory s (s.ea base offset)) (h : exec i s = s.storeLane offset base put)
    (hbytes : ∀ a, (s.mem.setBytes (align4 (s.ea base offset)).toNat (encodeWord (put (decodeWord
      (s.mem.bytesAt (align4 (s.ea base offset)).toNat)) (laneOf (s.ea base offset))))).byteAt a = byteAfter a) :
    StoreResult i s byteAfter (fun m => [.read (align4 (s.ea base offset)) 4,
      .write (align4 (s.ea base offset)) 4 (decodeWord (m.bytesAt (align4 (s.ea base offset)).toNat))]) := by
  have hexec := h.trans (State.storeLane_ok ((Memory.accepts_align4 _ _).2 hmem) put)
  refine ⟨_, hexec.trans (State.tail_eq _), ⟨rfl, rfl, rfl⟩, fun _ => rfl, rfl, rfl, rfl, hbytes, rfl, ?requests⟩
  case requests => simp [State.afterStoreLane, Memory.setBytes_bytesAt, decodeWord_encodeWord]

/-- Settles O51: the lane put back is the one of the effective address. -/
theorem storeByteResult : Obligations.StoreByteResult := by
  refine fun s rt base offset hmem => storeResult_of_storeLane hmem (exec_sb ..) fun a => ?_
  rw [byteAt_setBytes_putByte, ← toNat_eq_align4_add_lane]
  rfl

/-- Settles O52: the two bytes put back are those from the even effective address on. -/
theorem storeHalfResult : Obligations.StoreHalfResult := by
  refine fun s rt base offset hmem heven => storeResult_of_storeLane hmem (exec_sh rt heven) fun a => ?_
  have hhalf : (s.getReg rt).extractLsb' 0 16 = (encodeWord (s.getReg rt)).b2 ++ (encodeWord (s.getReg rt)).b3 :=
    halfLane_two _
  rw [hhalf, byteAt_setBytes_putHalf _ _ (even_lane_cases heven), ← toNat_eq_align4_add_lane]

/-- What SW does where the memory accepts its word. -/
theorem exec_sw {s : State} {base : Reg} {offset : Half} (ha : s.mem.accepts (align4 (s.ea base offset)) = true)
    (rt : Reg) : exec (.sw rt offset base) s =
      State.tail { s.issue (.write (align4 (s.ea base offset)) 4 (s.getReg rt)) with
        mem := s.mem.setBytes (align4 (s.ea base offset)).toNat (encodeWord (s.getReg rt)) } :=
  State.writeWord_ok ha _ _

/-- What SW does where it does not. -/
theorem exec_sw_refused {s : State} {base : Reg} {offset : Half}
    (ha : s.mem.accepts (align4 (s.ea base offset)) = false) (rt : Reg) : exec (.sw rt offset base) s =
      (s.issue (.write (align4 (s.ea base offset)) 4 (s.getReg rt))).raise (.memoryError .memErr) :=
  State.writeWord_refused ha _ _

/-- Settles O53: the four bytes are those of the word written. -/
theorem storeWordResult : Obligations.StoreWordResult := by
  intro s rt base offset hmem
  have hexec := exec_sw ((Memory.accepts_align4 _ _).2 hmem) rt
  exact ⟨_, hexec.trans (State.tail_eq _), ⟨rfl, rfl, rfl⟩, fun _ => rfl, rfl, rfl, rfl,
    Memory.setBytes_byteAt _ _ _, rfl, rfl⟩

/-- Settles O54: the first request is refused, and an even address passes the alignment check before it. -/
theorem addressOutsideMemoryTraps : Obligations.AddressOutsideMemoryTraps := by
  intro s rt base offset hmem
  refine ⟨?bytesAndWords, fun heven => ?halves, ?sw⟩
  case bytesAndWords =>
    simp only [List.forall_mem_cons]
    exact ⟨errorResult_of_load hmem (exec_lb ..), errorResult_of_load hmem (exec_lbu ..),
      errorResult_of_load hmem (exec_lw ..), errorResult_of_load hmem (exec_lwl ..),
      errorResult_of_load hmem (exec_lwr ..), errorResult_of_storeLane hmem (exec_sb ..), nofun⟩
  case halves =>
    simp only [List.forall_mem_cons]
    exact ⟨errorResult_of_load hmem (exec_lh rt heven), errorResult_of_load hmem (exec_lhu rt heven),
      errorResult_of_storeLane hmem (exec_sh rt heven), nofun⟩
  case sw => exact exec_sw_refused (refused_outside_memory hmem) rt

/-! ## A stored instruction (R80, R708) -/

/-- A word written at `a` is what a fetch there decodes. -/
theorem decodeBytes_setBytes (p : Params) (m : Memory) (a : Nat) (w : Word) :
    decodeBytes p ((m.setBytes a (encodeWord w)).bytesAt a) = decode p w := by
  rw [Memory.setBytes_bytesAt, decodeBytes, decodeWord_encodeWord]

/-- A successful SW was accepted and wrote its word. -/
theorem sw_success {s t : State} {rt base : Reg} {offset : Half} (h : exec (.sw rt offset base) s = .next t)
    (ht : t.status = some .success) : s.mem.accepts (align4 (s.ea base offset)) = true ∧
      t.mem = s.mem.setBytes (align4 (s.ea base offset)).toNat (encodeWord (s.getReg rt)) := by
  cases ha : s.mem.accepts (align4 (s.ea base offset))
  · cases (exec_sw_refused ha rt).symm.trans h
    simp at ht
  · cases (exec_sw ha rt).symm.trans h
    exact ⟨rfl, rfl⟩

/-- Settles O55: the memory accepted the write at `nextPc`, so it accepts the fetch there and answers what was
written. -/
theorem storedInstructionRunsNext : Obligations.StoredInstructionRunsNext := by
  intro s t rt base offset i hsw ⟨hstep, ht⟩ haddr hdec
  have hexec := (FailedStep.step_of_fetchedInstr hsw).symm.trans hstep
  have hpc : t.pc = s.nextPc := (StepFacts.successFollowsTheSequencer _ _ t hexec ht).1
  have hparams : t.params = s.params := (Frame.exec_params hexec :)
  obtain ⟨ha, hmem⟩ : s.mem.accepts (align4 (s.ea base offset)) = true ∧
      t.mem = s.mem.setBytes (align4 (s.ea base offset)).toNat (encodeWord (s.getReg rt)) :=
    (sw_success hexec ht :)
  rw [haddr, ← hpc] at ha hmem
  have hfetch : FetchedInstr t i := by
    refine ⟨?_, ?_⟩
    · rw [hmem, Memory.accepts_congr (Memory.setBytes_size ..), ha]
    · rw [hmem, hparams, decodeBytes_setBytes, hdec]
  rw [← hpc]
  exact FailedStep.step_of_fetchedInstr hfetch

end Sys2Proof.LoadStore
end

section
/-! The host's view (spec/10_state.md R31, R33, R35; spec/70_reset_and_hazards.md R700, R702; log 7): the calls that set
and reset, the first step of a created core, and an instruction that the host places at `pc`. -/

namespace Sys2Proof.HostView

open Sys2Proof.Machine Sys2Proof.Claims Sys2Proof.StepFacts Sys2Proof.LoadStore

/-! ## Calls -/

theorem setPc_plus4 {s : State} (h : s.params.setPcNext = .plus4) (v : Word) :
    setPc s v = { s with pc := v, nextPc := v + 4#32 } := by rw [setPc, h]

theorem setPc_keep {s : State} (h : s.params.setPcNext = .keep) (v : Word) : setPc s v = { s with pc := v } := by
  rw [setPc, h]

theorem zeroState_getReg (p : Params) (m : Memory) (r : Reg) : (zeroState p m).getReg r = 0#32 := by
  simp [State.getReg, zeroState]

/-- Settles O57: `set_pc` has one equation for each value of SET_PC_NEXT, and a reset core is `zeroState`. -/
theorem hostPcResetAndDebugLevel : Obligations.HostPcResetAndDebugLevel := fun s v _ _ =>
  ⟨fun h => setPc_plus4 h v, fun h => setPc_keep h v, rfl, rfl, rfl, rfl, rfl, rfl, zeroState_getReg s.params s.mem,
    rfl, rfl, rfl⟩

/-! ## The first step of a created core -/

/-- What the next step fetches depends on `pc`, the parameters and the bytes of memory. -/
theorem fetchedInstr_congr {s t : State} {i : Instr} (hpc : t.pc = s.pc) (hparams : t.params = s.params)
    (hmem : SameBytes s t) (h : FetchedInstr s i) : FetchedInstr t i := by
  obtain ⟨hsize, hbytes⟩ := hmem
  have hword : t.mem.bytesAt s.pc.toNat = s.mem.bytesAt s.pc.toNat := by simp only [Memory.bytesAt, hbytes]
  rwa [FetchedInstr, hpc, hparams, Memory.accepts_congr hsize, hword]

/-- Settles O59: a created core has `pc` and `nextPc` 0, and an instruction that is no store leaves the word at 0. -/
theorem bareResetStaysAtWordZero : Obligations.BareResetStaysAtWordZero := by
  refine fun p m i t hc => ⟨fun hfetch hsucc => ?created, fun hplus hfetch hsucc => ?afterSetPc⟩
  case created =>
    obtain ⟨hpc, hnext⟩ := commonTail_of_succeeds hfetch hsucc hc
    refine ⟨hpc, hnext, fun hstore => ?_⟩
    obtain ⟨hstep, -⟩ := hsucc
    obtain ⟨hparams, -, hsame, -⟩ :=
      Frame.onlyStoresChangeMemory i _ t ((FailedStep.step_of_fetchedInstr hfetch).symm.trans hstep)
    exact fetchedInstr_congr hpc hparams (hsame hstore) hfetch
  case afterSetPc =>
    obtain ⟨hpc, hnext⟩ := commonTail_of_succeeds hfetch hsucc hc
    rw [setPc_plus4 hplus] at hpc hnext
    exact ⟨hpc, hnext⟩

/-! ## An instruction placed at `pc` -/

theorem withFetchWord_of_accepts {s : State} (h : s.mem.accepts s.pc = true) (w : Word) :
    s.withFetchWord 32 w.toNat = { s with mem := s.mem.setBytes s.pc.toNat (encodeWord w) } := by
  have hw : BitVec.ofNat 32 (w.toNat % 2 ^ 32) = w := by
    rw [Nat.mod_eq_of_lt w.isLt, BitVec.ofNat_toNat, BitVec.setWidth_eq]
  rw [State.withFetchWord, hw, State.placeAtPc, Memory.write_of_accepts h]

/-- Settles O60: the encoding decodes to the instruction (O1), and the four bytes at `pc` are all that is written. -/
theorem placedInstructionRunsNext : Obligations.PlacedInstructionRunsNext := by
  intro s i hacc hwf
  rw [withFetchWord_of_accepts hacc]
  refine ⟨⟨(Memory.accepts_congr rfl _).trans hacc, ?_⟩, fun a ha => Memory.setBytes_byteAt_outside _ _ _ _ ha⟩
  rw [decodeBytes_setBytes, RoundTrip.decodeOfEncodeIsTheInstruction _ _ hwf]

end Sys2Proof.HostView
end
